-- ==== Sys2Proof/Word.lean ====
section
/-! DEFINITION. The two data widths of the block: the 16-bit CPU side and the 8-bit controller side
(spec/00_scope.md R5, R6). -/

namespace Sys2Proof

/-- A byte: 8 bits, bit 0 least significant (R6). -/
abbrev Byte := BitVec 8

/-- A word: 16 bits, high byte `w[15:8]`, low byte `w[7:0]` (R6). -/
abbrev Word := BitVec 16

end Sys2Proof
end

