-- ==== Sys2Proof/Config.lean ====
section
/-! DEFINITION. The implementation parameters of spec/00_scope.md R5 and the free values.
The parameters are plain data carried by `State.cfg`; no operation writes them
(notes/assumptions/8.md). What the spec gives no default for, and what the controller chip answers when the
environment supplied no answer, are opaque constants: nothing can be proved of their values. -/

namespace Sys2Proof

/-- `LAYOUT_ICR`: the bit position of each field of the control byte (R5, R62).
`ra1` and `ra0` are the two bits of `RA`. -/
structure IcrLayout where
  cli : Fin 8
  ddw : Fin 8
  den : Fin 8
  rsc : Fin 8
  adw : Fin 8
  sct : Fin 8
  ra1 : Fin 8
  ra0 : Fin 8
deriving DecidableEq, Repr

/-- `LAYOUT_STATUS`: the bit position of each status bit (R5, R64). -/
structure StatusLayout where
  fip : Fin 8
  dip : Fin 8
  mc1 : Fin 8
  wp1 : Fin 8
  rdy1 : Fin 8
  mc0 : Fin 8
  wp0 : Fin 8
  rdy0 : Fin 8
deriving DecidableEq, Repr

/-- `LAYOUT_DCR`: the bit position of each drive-control bit (R5, R63). `side` is the parameter
`DCR_SIDE_BIT`; the position no field takes is stored and has no function. -/
structure DcrLayout where
  side : Fin 8
  rmc1 : Fin 8
  mot1 : Fin 8
  drv1 : Fin 8
  rmc0 : Fin 8
  mot0 : Fin 8
  drv0 : Fin 8
deriving DecidableEq, Repr

/-- The positions a control-byte layout uses, most significant default first. -/
def IcrLayout.positions (l : IcrLayout) : List (Fin 8) :=
  [l.cli, l.ddw, l.den, l.rsc, l.adw, l.sct, l.ra1, l.ra0]

/-- The positions a status layout uses. -/
def StatusLayout.positions (l : StatusLayout) : List (Fin 8) :=
  [l.fip, l.dip, l.mc1, l.wp1, l.rdy1, l.mc0, l.wp0, l.rdy0]

/-- The positions a drive-control layout uses. -/
def DcrLayout.positions (l : DcrLayout) : List (Fin 8) :=
  [l.side, l.rmc1, l.mot1, l.drv1, l.rmc0, l.mot0, l.drv0]

/-- A layout gives every field a position of its own (DEDUCED: two fields on one bit would be no layout;
notes/assumptions/26.md). -/
abbrev IcrLayout.Wf (l : IcrLayout) : Prop := l.positions.Nodup

/-- As `IcrLayout.Wf`. -/
abbrev StatusLayout.Wf (l : StatusLayout) : Prop := l.positions.Nodup

/-- As `IcrLayout.Wf`. -/
abbrev DcrLayout.Wf (l : DcrLayout) : Prop := l.positions.Nodup

/-- The default of `LAYOUT_ICR`: the order of R62 from bit 7 down (D1). -/
def IcrLayout.standard : IcrLayout :=
  { cli := 7, ddw := 6, den := 5, rsc := 4, adw := 3, sct := 2, ra1 := 1, ra0 := 0 }

/-- The default of `LAYOUT_STATUS`: the table of R64 (D2). -/
def StatusLayout.standard : StatusLayout :=
  { fip := 7, dip := 6, mc1 := 5, wp1 := 4, rdy1 := 3, mc0 := 2, wp0 := 1, rdy0 := 0 }

/-- The table of R63 with `DCR_SIDE_BIT` at a given position (D3: 7 or 6). -/
def DcrLayout.withSideBit (p : Fin 8) : DcrLayout :=
  { side := p, rmc1 := 5, mot1 := 4, drv1 := 3, rmc0 := 2, mot0 := 1, drv0 := 0 }

/-- The default of `LAYOUT_DCR`: `DCR_SIDE_BIT` is 7 (R5, R63; PRESUMED by the spec itself from general
knowledge, GK1; notes/assumptions/19.md). -/
def DcrLayout.standard : DcrLayout := DcrLayout.withSideBit 7

/-- The named parameters of R5. -/
structure Config where
  /-- `LAYOUT_ICR`. -/
  layoutIcr : IcrLayout
  /-- `LAYOUT_STATUS`. -/
  layoutStatus : StatusLayout
  /-- `LAYOUT_DCR`, with `DCR_SIDE_BIT` as its `side`. -/
  layoutDcr : DcrLayout
  /-- `IDX3_READ_VALUE`: what a read of index 3 returns (R131). -/
  idx3ReadValue : Word
  /-- `FDC_IRQ_IN_AGG`: whether the controller's interrupt request is a term of `PEND[4]` (R175). -/
  fdcIrqInAgg : Bool
  /-- `WINDOW_BASE`: where the platform places the window; no rule reads it (R40). -/
  windowBase : Nat
deriving DecidableEq, Repr

/-- All three layouts give every field a position of its own. -/
abbrev Config.Wf (c : Config) : Prop := c.layoutIcr.Wf ∧ c.layoutStatus.Wf ∧ c.layoutDcr.Wf

/-- The value of `IDX3_READ_VALUE` in a machine about which nothing more is known: the source gives none
(R131, D25; notes/assumptions/9.md). -/
opaque Config.freeIdx3ReadValue : Word

/-- The value of `WINDOW_BASE` in a machine about which nothing more is known (R40, D37;
notes/assumptions/9.md). -/
opaque Config.freeWindowBase : Nat

/-- What the controller chip answers to the `n`-th read for which the environment supplied no answer:
any byte, "no rule constrains it" (R7, U7; notes/assumptions/5.md). -/
opaque Config.freeAnswer : Nat → Byte

/-- The parameters at their defaults (R5), and at a free value where there is no default. -/
def Config.standard : Config :=
  { layoutIcr := IcrLayout.standard
    layoutStatus := StatusLayout.standard
    layoutDcr := DcrLayout.standard
    idx3ReadValue := Config.freeIdx3ReadValue
    fdcIrqInAgg := false
    windowBase := Config.freeWindowBase }

end Sys2Proof
end

