-- ==== Sys2Proof/Syntax.lean ====
section
/-! DEFINITION. The operations of the block, one constructor per row of spec/opcode_table.json
(spec/30_encoding.md R75), and the raw frames the environment delivers them in. -/

namespace Sys2Proof

/-- A drive number `d` in `{0, 1}` (R5). -/
inductive Drive where
  | d0
  | d1
deriving DecidableEq, Repr

/-- The modifier bits of a control word, which act in every sub-operation (R62, R72). -/
structure Mods where
  /-- `CLI`, ClearInterrupts. -/
  cli : Bool
  /-- `DDW`, DmaDirectionWrite. -/
  ddw : Bool
  /-- `DEN`, DmaEnable. -/
  den : Bool
  /-- `RSC`, ResetController. -/
  rsc : Bool
deriving DecidableEq, Repr

/-- The operations (R75). -/
inductive Instr where
  /-- CPU read of index 0, "not terminal" (R95). -/
  | rd0
  /-- CPU read of index 1 (R130). -/
  | rd1
  /-- CPU read of index 2, "terminal" (R96). -/
  | rd2
  /-- CPU read of index 3 (R131). -/
  | rd3
  /-- CPU write of index 0, "transfer, not terminal" (R93). -/
  | wr0 (w : Word)
  /-- CPU write of index 1, the control write (R121). -/
  | wr1 (w : Word)
  /-- CPU write of index 2, "transfer, at terminal" (R94). -/
  | wr2 (w : Word)
  /-- CPU write of index 3 (R132). -/
  | wr3 (w : Word)
  /-- Control write with `ADW` = 1, `SCT` = 1 (R122). -/
  | ctlFdcw (m : Mods) (ra : BitVec 2) (d : Byte)
  /-- Control write with `ADW` = 1, `SCT` = 0; `ra` is stored in `ICR` and otherwise ignored (R123). -/
  | ctlDrvw (m : Mods) (ra : BitVec 2) (d : Byte)
  /-- Control write with `ADW` = 0, `SCT` = 1; `d` is ignored (R124). -/
  | ctlFdcr (m : Mods) (ra : BitVec 2) (d : Byte)
  /-- Control write with `ADW` = 0, `SCT` = 0; `ra` is stored and otherwise ignored, `d` ignored (R125). -/
  | ctlDrvr (m : Mods) (ra : BitVec 2) (d : Byte)
  /-- The system reset (R242). -/
  | reset
  /-- The controller's data-request line takes level `v` (R97). -/
  | drqLine (v : Bool)
  /-- The controller's interrupt-request line takes level `v` (R141). -/
  | firqLine (v : Bool)
  /-- The ready line of drive `d` takes level `v` (R142). -/
  | rdyLine (d : Drive) (v : Bool)
  /-- The write-protect line of drive `d` takes level `v` (R143). -/
  | wpLine (d : Drive) (v : Bool)
  /-- The index-pulse line of drive `d` takes level `v` (R144). -/
  | idxLine (d : Drive) (v : Bool)
  /-- Drive `d` signals that its media was changed (R145). -/
  | mchg (d : Drive)
  /-- One scanner tick with matrix sample `m` (R191). -/
  | ktick (m : BitVec 128)
  /-- The CPU acknowledges the keyboard event (R192). -/
  | kack
  /-- Set or clear one mask bit (R171). -/
  | setmask (i : BitVec 3) (v : Bool)
  /-- An external source sets or clears its pending bit (R172). -/
  | setpend (i : BitVec 3) (v : Bool)
deriving DecidableEq, Repr

/-- The three formats (R60): the interface an operation arrives on, which is what names it (R75). -/
inductive Format where
  /-- A CPU access of the window, the 3-bit descriptor of R61. -/
  | bus
  /-- A control word written at index 1 (R62). -/
  | ctl
  /-- An event at one of the other interfaces, the 8-bit code of R70. -/
  | evt
deriving DecidableEq, Repr

/-- One delivered operation in raw form: its format, and its bytes, the first byte the least significant.
A `bus` frame is the descriptor byte and, for a write, the two bytes of the word, low byte first; a `ctl`
frame is the two bytes of the control word, low byte first; an `evt` frame is the code byte and, for
`KTICK`, the 16 bytes of the sample, position 0 in bit 0 of the first (DESIGN CHOICE: the hardware has no
encoding, R61, R70; notes/assumptions/2.md). -/
structure Frame where
  format : Format
  bytes : List Byte
deriving DecidableEq, Repr

/-- Why a frame is no operation of the block. -/
inductive DecodeError where
  /-- The frame holds no byte at all. -/
  | emptyFrame
  /-- A bus descriptor with a bit above the three of R61. -/
  | busDescriptor
  /-- An access that does not carry exactly one whole word (R42: a model refuses it). -/
  | accessWidth
  /-- An event code that is no row of R70. -/
  | eventCode
  /-- An event frame whose operand has not the length its row gives. -/
  | eventOperand
deriving DecidableEq, Repr

end Sys2Proof
end

