-- ==== Sys2Proof/Machine/Operands.lean ====
section
/-! DEFINITION. Bits, halves and fields: how operands are taken from words and registers
(spec/00_scope.md R6, spec/30_encoding.md R62 to R68, R71). -/

namespace Sys2Proof.Machine

/-- `x[i] <- v`: bit `i` replaced, every other bit kept (R7). -/
def withBit {n : Nat} (x : BitVec n) (i : Nat) (v : Bool) : BitVec n :=
  if v then x ||| (1#n <<< i) else x &&& ~~~(1#n <<< i)

/-- `w[15:8]` (R6). -/
def hiByte (w : Word) : Byte := w.extractLsb' 8 8

/-- `w[7:0]` (R6). -/
def loByte (w : Word) : Byte := w.extractLsb' 0 8

/-- The word with high byte `h` and low byte `l`, the concatenation of R6. -/
def wordOf (h l : Byte) : Word := h ++ l

/-- `w[15:8] <- b`: the low half keeps its value (R14). -/
def withHi (w : Word) (b : Byte) : Word := wordOf b (loByte w)

/-- `w[7:0] <- b`: the high half keeps its value (R14). -/
def withLo (w : Word) (b : Byte) : Word := wordOf (hiByte w) b

/-- A field of one bit, read at its position. -/
def bitAt (b : Byte) (p : Fin 8) : Bool := b.getLsbD p

/-- The modifier bits of a control byte (R62). -/
def modsOf (l : IcrLayout) (c : Byte) : Mods :=
  { cli := bitAt c l.cli, ddw := bitAt c l.ddw, den := bitAt c l.den, rsc := bitAt c l.rsc }

/-- `RA` of a control byte: 2 bits, passed to the controller as they stand (R62, R71). -/
def raOf (l : IcrLayout) (c : Byte) : BitVec 2 :=
  BitVec.ofBool (bitAt c l.ra1) ++ BitVec.ofBool (bitAt c l.ra0)

/-- The control byte with the given fields (R62). -/
def ctlByte (l : IcrLayout) (m : Mods) (adw sct : Bool) (ra : BitVec 2) : Byte :=
  withBit (withBit (withBit (withBit (withBit (withBit (withBit (withBit 0#8
    l.cli m.cli) l.ddw m.ddw) l.den m.den) l.rsc m.rsc) l.adw adw) l.sct sct)
    l.ra1 (ra.getLsbD 1)) l.ra0 (ra.getLsbD 0)

/-- Which drive number a bit names: 1 is drive 1 (R70). -/
def driveOf : Bool → Drive
  | false => .d0
  | true => .d1

/-- The bit of a drive number (R70). -/
def driveBit : Drive → Bool
  | .d0 => false
  | .d1 => true

/-- Four bytes of a sample group, the lowest positions first. -/
def groupOf (b0 b1 b2 b3 : Byte) : BitVec 32 := b3 ++ b2 ++ b1 ++ b0

/-- The matrix sample of four 32-bit groups: position `p` is bit `p mod 32` of group `p div 32`,
`m = {g3, g2, g1, g0}` (R68, D32). -/
def matrixOf (g0 g1 g2 g3 : BitVec 32) : BitVec 128 := g3 ++ g2 ++ g1 ++ g0

/-- Byte `k` of a matrix sample. -/
def matrixByte (m : BitVec 128) (k : Nat) : Byte := m.extractLsb' (8 * k) 8

end Sys2Proof.Machine
end

