-- ==== Sys2Proof/WellFormed.lean ====
section
/-! DEFINITION. Which operations are part of the interface. The operand types already hold every other
operand to its range (a 2-bit register address, a drive number, a level, a 128-bit sample). -/

namespace Sys2Proof

/-- The pending bits that belong to the block itself: 0 (keyboard) and 4 (floppy subsystem)
(spec/44_interrupt_aggregator.md R176). -/
abbrev ownedPendBit (i : BitVec 3) : Bool := i == 0#3 || i == 4#3

/-- `SETPEND` takes `i` in {1, 2, 3, 5, 6, 7} (R172, R176); every other operation is well formed as typed. -/
abbrev WellFormed : Instr → Bool
  | .setpend i _ => !ownedPendBit i
  | _ => true

end Sys2Proof
end

