-- ==== Sys2Proof/Decode.lean ====
section
/-! DEFINITION. The decoder, total on any frame and rejecting by name, and the encoder
(spec/30_encoding.md R61, R62, R70, R72, R75; spec/opcode_table.json). -/

namespace Sys2Proof

open Machine

/-! ### Format `BUS` (R61) -/

/-- The read operation of an index code. -/
def busRead (i : BitVec 2) : Instr :=
  if i = 0#2 then .rd0 else if i = 1#2 then .rd1 else if i = 2#2 then .rd2 else .rd3

/-- The write operation of an index code. -/
def busWrite (i : BitVec 2) (w : Word) : Instr :=
  if i = 0#2 then .wr0 w else if i = 1#2 then .wr1 w else if i = 2#2 then .wr2 w else .wr3 w

/-- A bus access: descriptor bits `{W, I[1:0]}`; a write carries exactly one word, a read none (R42, R61). -/
def decodeBus (c : Byte) (data : List Byte) : Except DecodeError Instr :=
  if c.extractLsb' 3 5 = 0#5 then
    if c.getLsbD 2 then
      match data with
      | [lo, hi] => .ok (busWrite (c.extractLsb' 0 2) (wordOf hi lo))
      | _ => .error .accessWidth
    else
      match data with
      | [] => .ok (busRead (c.extractLsb' 0 2))
      | _ => .error .accessWidth
  else .error .busDescriptor

/-! ### Format `CTL` (R62, R72) -/

/-- The sub-operation a control word names by `ADW` and `SCT`, with its fields (R72). -/
def ctlOf (l : IcrLayout) (w : Word) : Instr :=
  let c := hiByte w
  match bitAt c l.adw, bitAt c l.sct with
  | true, true => .ctlFdcw (modsOf l c) (raOf l c) (loByte w)
  | true, false => .ctlDrvw (modsOf l c) (raOf l c) (loByte w)
  | false, true => .ctlFdcr (modsOf l c) (raOf l c) (loByte w)
  | false, false => .ctlDrvr (modsOf l c) (raOf l c) (loByte w)

/-- A control word delivered by itself: exactly one word. -/
def decodeCtl (l : IcrLayout) (lo : Byte) (data : List Byte) : Except DecodeError Instr :=
  match data with
  | [hi] => .ok (ctlOf l (wordOf hi lo))
  | _ => .error .accessWidth

/-! ### Format `EVT` (R70) -/

/-- An event that carries no operand bytes. -/
def eventAlone (i : Instr) (data : List Byte) : Except DecodeError Instr :=
  match data with
  | [] => .ok i
  | _ => .error .eventOperand

/-- The 128-bit sample of a tick, 16 bytes in four groups of 32 bits (R68). -/
def eventTick (data : List Byte) : Except DecodeError Instr :=
  match data with
  | [b0, b1, b2, b3, b4, b5, b6, b7, b8, b9, b10, b11, b12, b13, b14, b15] =>
    .ok (.ktick (matrixOf (groupOf b0 b1 b2 b3) (groupOf b4 b5 b6 b7) (groupOf b8 b9 b10 b11)
      (groupOf b12 b13 b14 b15)))
  | _ => .error .eventOperand

/-- The mask and the match of each event row of spec/opcode_table.json, in its order. -/
def evtRows : List (Byte × Byte) :=
  [(0xFF#8, 0x00#8), (0xFE#8, 0x10#8), (0xFE#8, 0x20#8), (0xFC#8, 0x30#8), (0xFC#8, 0x40#8),
   (0xFC#8, 0x50#8), (0xFE#8, 0x60#8), (0xFF#8, 0x70#8), (0xFF#8, 0x80#8), (0xF0#8, 0x90#8),
   (0xF0#8, 0xA0#8)]

/-- An event by its code: the row whose match the masked code equals; any other code is refused (R70). -/
def decodeEvt (c : Byte) (data : List Byte) : Except DecodeError Instr :=
  let v := c.getLsbD 0
  let d := driveOf (c.getLsbD 1)
  let i : BitVec 3 := c.extractLsb' 1 3
  if c &&& 0xFF#8 = 0x00#8 then eventAlone .reset data
  else if c &&& 0xFE#8 = 0x10#8 then eventAlone (.drqLine v) data
  else if c &&& 0xFE#8 = 0x20#8 then eventAlone (.firqLine v) data
  else if c &&& 0xFC#8 = 0x30#8 then eventAlone (.rdyLine d v) data
  else if c &&& 0xFC#8 = 0x40#8 then eventAlone (.wpLine d v) data
  else if c &&& 0xFC#8 = 0x50#8 then eventAlone (.idxLine d v) data
  else if c &&& 0xFE#8 = 0x60#8 then eventAlone (.mchg (driveOf v)) data
  else if c &&& 0xFF#8 = 0x70#8 then eventTick data
  else if c &&& 0xFF#8 = 0x80#8 then eventAlone .kack data
  else if c &&& 0xF0#8 = 0x90#8 then eventAlone (.setmask i v) data
  else if c &&& 0xF0#8 = 0xA0#8 then eventAlone (.setpend i v) data
  else .error .eventCode

/-- The operation a frame is, or why it is none. The format is the interface the frame arrives on; for a
control word the field positions are those of the layout in force (R62, R75). -/
def decode (l : IcrLayout) (f : Frame) : Except DecodeError Instr :=
  match f.bytes with
  | [] => .error .emptyFrame
  | c :: data =>
    match f.format with
    | .bus => decodeBus c data
    | .ctl => decodeCtl l c data
    | .evt => decodeEvt c data

/-! ### The encoder, from the same tables -/

/-- A bus read frame. -/
def readFrame (i : BitVec 2) : Frame :=
  { format := .bus, bytes := [0#6 ++ i] }

/-- A bus write frame. -/
def writeFrame (i : BitVec 2) (w : Word) : Frame :=
  { format := .bus, bytes := [1#6 ++ i, loByte w, hiByte w] }

/-- A control-word frame. -/
def ctlFrame (l : IcrLayout) (m : Mods) (adw sct : Bool) (ra : BitVec 2) (d : Byte) : Frame :=
  { format := .ctl, bytes := [d, ctlByte l m adw sct ra] }

/-- An event frame. -/
def evtFrame (c : Byte) (data : List Byte) : Frame :=
  { format := .evt, bytes := c :: data }

/-- The 16 operand bytes of a tick. -/
def matrixBytes (m : BitVec 128) : List Byte :=
  [matrixByte m 0, matrixByte m 1, matrixByte m 2, matrixByte m 3, matrixByte m 4, matrixByte m 5,
   matrixByte m 6, matrixByte m 7, matrixByte m 8, matrixByte m 9, matrixByte m 10, matrixByte m 11,
   matrixByte m 12, matrixByte m 13, matrixByte m 14, matrixByte m 15]

/-- The frame of an operation (R61, R62, R70, R72). -/
def encode (l : IcrLayout) : Instr → Frame
  | .rd0 => readFrame 0#2
  | .rd1 => readFrame 1#2
  | .rd2 => readFrame 2#2
  | .rd3 => readFrame 3#2
  | .wr0 w => writeFrame 0#2 w
  | .wr1 w => writeFrame 1#2 w
  | .wr2 w => writeFrame 2#2 w
  | .wr3 w => writeFrame 3#2 w
  | .ctlFdcw m ra d => ctlFrame l m true true ra d
  | .ctlDrvw m ra d => ctlFrame l m true false ra d
  | .ctlFdcr m ra d => ctlFrame l m false true ra d
  | .ctlDrvr m ra d => ctlFrame l m false false ra d
  | .reset => evtFrame 0x00#8 []
  | .drqLine v => evtFrame (0b0001000#7 ++ BitVec.ofBool v) []
  | .firqLine v => evtFrame (0b0010000#7 ++ BitVec.ofBool v) []
  | .rdyLine d v => evtFrame (0b001100#6 ++ BitVec.ofBool (driveBit d) ++ BitVec.ofBool v) []
  | .wpLine d v => evtFrame (0b010000#6 ++ BitVec.ofBool (driveBit d) ++ BitVec.ofBool v) []
  | .idxLine d v => evtFrame (0b010100#6 ++ BitVec.ofBool (driveBit d) ++ BitVec.ofBool v) []
  | .mchg d => evtFrame (0b0110000#7 ++ BitVec.ofBool (driveBit d)) []
  | .ktick m => evtFrame 0x70#8 (matrixBytes m)
  | .kack => evtFrame 0x80#8 []
  | .setmask i v => evtFrame (0b1001#4 ++ i ++ BitVec.ofBool v) []
  | .setpend i v => evtFrame (0b1010#4 ++ i ++ BitVec.ofBool v) []

/-! ### The numbers of the opcode table -/

/-- Byte `k` of a number, byte 0 the least significant. -/
def numByte (w k : Nat) : Byte := BitVec.ofNat 8 (w / 2 ^ (8 * k))

/-- The `n` low bytes of a number, least significant first. -/
def numBytes (w n : Nat) : List Byte := (List.range n).map (numByte w)

/-- The bus frame of a 3-bit descriptor, with the operand bits above it. -/
def tableBus (w : Nat) : Frame :=
  { format := .bus, bytes := if w.testBit 2 then numBytes w 3 else numBytes w 1 }

/-- The event frame of an 8-bit code, with the operand bits above it. -/
def tableEvt (w : Nat) : Frame :=
  { format := .evt, bytes := if w % 256 = 0x70 then numBytes w 17 else numBytes w 1 }

/-- The frame of an instruction given as the opcode table numbers it, every bit above `nbits` being 0.
The table's widths name the format: 16 bits is a control word, 24 bits a bus write with its operand, 8 bits
or 136 bits an event, but for the 8-bit numbers 1 to 7, which no event row matches and which are the bus
descriptors; fewer than 8 bits is a bus descriptor. The 8-bit number 0 is both `RD0` (3 bits, padded) and
`RESET` (8 bits): it is read as `RESET` (DESIGN CHOICE; notes/assumptions/3.md). -/
def tableFrame (nbits w : Nat) : Frame :=
  if nbits < 8 then tableBus w
  else if nbits = 16 then { format := .ctl, bytes := numBytes w 2 }
  else if nbits = 24 then tableBus w
  else if nbits = 8 ∧ w ≠ 0 ∧ w < 8 then tableBus w
  else tableEvt w

/-- The instruction the decoder reads from the table's number `w` of `nbits` bits. -/
def decodeTableWord (nbits w : Nat) : Option Instr :=
  match decode IcrLayout.standard (tableFrame nbits w) with
  | .ok i => some i
  | .error _ => none

end Sys2Proof
end

