-- ==== Sys2Proof/Machine/State.lean ====
section
/-! DEFINITION. The state of the block (spec/10_state.md R10), as plain data, and the model's own fields: the
parameters, the operations delivered and not yet run, the controller's answers, and the output streams
(spec/00_scope.md R7, R8). -/

namespace Sys2Proof.Machine

/-- `BS`, the DMA sequencer state (R11). -/
inductive Bs where
  /-- `Idle`. -/
  | idle
  /-- `WR1`, the source's `DmaWritePhase1`. -/
  | wr1
  /-- `WR2`, `DmaWritePhase2`. -/
  | wr2
  /-- `RD1`, `DmaReadPhase1`. -/
  | rd1
  /-- `RD2`, `DmaReadPhase2`. -/
  | rd2
deriving DecidableEq, Repr

/-- `SEL`, the drive routed to the controller (R20). -/
inductive Sel where
  /-- `None`. -/
  | none
  /-- `D0`. -/
  | d0
  /-- `D1`. -/
  | d1
deriving DecidableEq, Repr

/-- One bit per drive: `X[0]` and `X[1]`. -/
structure PerDrive where
  d0 : Bool
  d1 : Bool
deriving DecidableEq, Repr

/-- A call the block makes at an external interface, with the answer where there is one (R7, R46, R47). -/
inductive Call where
  /-- `CtlReadData() -> answer`. -/
  | ctlReadData (answer : Byte)
  /-- `CtlWriteData(b)`. -/
  | ctlWriteData (b : Byte)
  /-- `CtlReadReg(a) -> answer`. -/
  | ctlReadReg (a : BitVec 2) (answer : Byte)
  /-- `CtlWriteReg(a, b)`. -/
  | ctlWriteReg (a : BitVec 2) (b : Byte)
  /-- `CtlSoftReset()`. -/
  | ctlSoftReset
  /-- `CtlSetFloppy(sel)`. -/
  | ctlSetFloppy (sel : Sel)
  /-- `DrvSetMotor(d, level)`. -/
  | drvSetMotor (d : Drive) (level : Bool)
  /-- `DrvSetSide(d, level)`. -/
  | drvSetSide (d : Drive) (level : Bool)
deriving DecidableEq, Repr

/-- A record of the report output (R210): what the table of R210 says is recorded. -/
inductive Report where
  /-- Read of index 0 or 2 out of turn (R211). -/
  | an1 (bs : Bs) (index : BitVec 2)
  /-- Write of index 0 or 2 out of turn (R212). -/
  | an2 (bs : Bs) (index : BitVec 2)
  /-- Data request in `Idle` with DMA disabled (R213). -/
  | an3 (bs : Bs)
  /-- Data request while the CPU's turn is pending (R214). -/
  | an4 (bs : Bs)
  /-- Drive-control write with both drives enabled (R215). -/
  | dg1 (b : Byte)
deriving DecidableEq, Repr

/-- Data returned to the CPU (R7). -/
inductive Result where
  /-- The word driven on the CPU bus by a read of the window. -/
  | word (w : Word)
  /-- The pair `(KCUR, KPRS)` of an acknowledge, with no packing (R69). -/
  | key (pos : BitVec 7) (pressed : Bool)
deriving DecidableEq, Repr

/-- The state: the record of R10, then the model's own fields. -/
structure State where
  /-- `BS` (R11). -/
  bs : Bs
  /-- `ICR`, interface control register (R12). -/
  icr : Byte
  /-- `DCR`, drive control register, as the CPU wrote it (R13). -/
  dcr : Byte
  /-- `OL`, output latch (R14). -/
  ol : Word
  /-- `WL`, DMA write latch (R15). -/
  wl : Word
  /-- `DIP`, DMA interrupt pending (R16). -/
  dip : Bool
  /-- `MC`, media-changed latches (R17). -/
  mc : PerDrive
  /-- `MCI`, media-changed interrupt conditions (R18). -/
  mci : PerDrive
  /-- `WPS`, write-protect status latches (R19). -/
  wps : PerDrive
  /-- `SEL` (R20). -/
  sel : Sel
  /-- `MASK` (R21). -/
  mask : Byte
  /-- `PEND` (R22). -/
  pend : Byte
  /-- `KPREV`, keyboard previous-state set (R23). -/
  kprev : BitVec 128
  /-- `KCUR`, scan cursor (R24). -/
  kcur : BitVec 7
  /-- `KEVT`, keyboard event flag (R25). -/
  kevt : Bool
  /-- `KPRS`, pressed flag (R26). -/
  kprs : Bool
  /-- `DRQ`, mirror of the data-request line (R27). -/
  drq : Bool
  /-- `FIRQ`, mirror of the controller's interrupt-request line (R28). -/
  firq : Bool
  /-- `RDY`, mirrors of the ready lines (R29). -/
  rdy : PerDrive
  /-- The parameters of R5, "arguments of the model" (R32 (f)); never written (notes/assumptions/8.md). -/
  cfg : Config
  /-- The operations delivered and not yet run, in the environment's order (R50; notes/assumptions/1.md). -/
  inbox : List Frame
  /-- The controller's answers to its next reads, the oracle of R7 (notes/assumptions/5.md). -/
  answers : List Byte
  /-- How many reads were answered by a free value (notes/assumptions/5.md). -/
  nfree : Nat
  /-- The interface calls made, oldest first (R8; notes/assumptions/7.md). -/
  calls : List Call
  /-- The reports made, oldest first (R210; notes/assumptions/7.md). -/
  reports : List Report
  /-- The data returned to the CPU, oldest first (R8; notes/assumptions/7.md). -/
  results : List Result
deriving DecidableEq, Repr

/-- What stops the machine: nothing. "No condition in this subsystem is fatal to the surrounding system"
(R210); an anomaly is a report and the operation completes, so no operation ends in a fault
(notes/assumptions/24.md). -/
inductive Fault where
deriving DecidableEq, Repr

/-- Why the model refuses an operation. -/
inductive Refusal where
  /-- Raised by `exec` for an operation without a meaning; no operation is without one. Safe. -/
  | notModelled (mnemonic : String)
  /-- Raised by `step` for a frame that is no operation of the block: an access that is not one whole word
  (R42, D26, U12), a code or an operand length of no row of R61 or R70. Safe: nothing is claimed of it
  (notes/assumptions/11.md). -/
  | undecodable (e : DecodeError)
  /-- Raised by `SETPEND` of bit 0 or 4, "outside the interface, ... and a model refuses it" (R176, U11).
  Safe: nothing is claimed of it (notes/assumptions/12.md). -/
  | pendBitOwned (i : BitVec 3)
deriving DecidableEq, Repr

/-- The machine right after reset: the stored elements at the values of R241 (the table of R10), the mirrors
at 0 (R27 to R29; notes/assumptions/6.md), the parameters at their defaults (R5), nothing delivered and
nothing output yet (notes/assumptions/1.md, 5.md, 7.md). -/
def State.reset : State :=
  { bs := .idle
    icr := 0x00#8
    dcr := 0xFF#8
    ol := 0x0000#16
    wl := 0x0000#16
    dip := false
    mc := ⟨false, false⟩
    mci := ⟨false, false⟩
    wps := ⟨false, false⟩
    sel := .none
    mask := 0x00#8
    pend := 0x00#8
    kprev := 0#128
    kcur := 0#7
    kevt := false
    kprs := false
    drq := false
    firq := false
    rdy := ⟨false, false⟩
    cfg := Config.standard
    inbox := []
    answers := []
    nfree := 0
    calls := []
    reports := []
    results := [] }

end Sys2Proof.Machine
end

