-- ==== Sys2Proof/Machine/Flags.lean ====
section
/-! DEFINITION. The bits the block computes from its state: the status byte, the floppy pending bit, and the two
output lines (spec/42_status_aggregator.md R140, spec/44_interrupt_aggregator.md R173, R175,
spec/40_dma_sequencer.md R107). -/

namespace Sys2Proof.Machine

/-- `X[d]`. -/
def PerDrive.get (x : PerDrive) : Drive → Bool
  | .d0 => x.d0
  | .d1 => x.d1

/-- `X[d] <- v`. -/
def PerDrive.set (x : PerDrive) (d : Drive) (v : Bool) : PerDrive :=
  match d with
  | .d0 => { x with d0 := v }
  | .d1 => { x with d1 := v }

/-- `StatusCompose()`: the live status byte, laid out by `LAYOUT_STATUS` (R140, R64). -/
def statusCompose (s : State) : Byte :=
  let l := s.cfg.layoutStatus
  withBit (withBit (withBit (withBit (withBit (withBit (withBit (withBit 0#8
    l.fip s.firq) l.dip s.dip) l.mc1 s.mc.d1) l.wp1 s.wps.d1) l.rdy1 s.rdy.d1)
    l.mc0 s.mc.d0) l.wp0 s.wps.d0) l.rdy0 s.rdy.d0

/-- `DIP | MCI[0] | MCI[1] | (FDC_IRQ_IN_AGG & FIRQ)` (R175). -/
def floppyCondition (s : State) : Bool :=
  s.dip || s.mci.d0 || s.mci.d1 || (s.firq && s.cfg.fdcIrqInAgg)

/-- `FloppyIrqUpdate()`: `PEND[4]` takes the floppy condition (R175). -/
def floppyIrqUpdate (s : State) : State :=
  { s with pend := withBit s.pend 4 (floppyCondition s) }

/-- `IRQ`, the combined request: `(MASK & PEND) != 0x00`, no latch of its own (R33, R173). -/
def State.irq (s : State) : Bool := s.mask &&& s.pend != 0#8

/-- `DMAR`, the DMA request: 1 exactly in the two states that wait for the CPU (R34, R107). -/
def State.dmar (s : State) : Bool := s.bs == .wr1 || s.bs == .rd2

end Sys2Proof.Machine
end

