-- ==== Sys2Proof/Machine/Ops.lean ====
section
/-! DEFINITION. The operations the meanings share: output streams, controller reads, the sequencer's moves, the
drive control latch, reset, and the steps of a control write. The block takes no trap (spec/60_exceptions.md
R216, R220): what it has instead of an exception is `State.report`, and instead of a return from one nothing
(R221). -/

namespace Sys2Proof.Machine

/-! ### Output streams and the controller's answers (R7) -/

/-- An interface call is made. -/
def State.call (s : State) (c : Call) : State := { s with calls := s.calls ++ [c] }

/-- `report Anomaly(..)` or `report Diag(..)`: one record is appended and nothing else changes (R210). -/
def State.report (s : State) (r : Report) : State := { s with reports := s.reports ++ [r] }

/-- `return v`: the data the block gives the CPU (R7). -/
def State.give (s : State) (r : Result) : State := { s with results := s.results ++ [r] }

/-- The byte the controller answers to the next read: the environment's, or any byte (R7, U7). -/
def State.nextAnswer (s : State) : Byte :=
  match s.answers with
  | b :: _ => b
  | [] => Config.freeAnswer s.nfree

/-- The answer is used up. -/
def State.dropAnswer (s : State) : State :=
  match s.answers with
  | _ :: bs => { s with answers := bs }
  | [] => { s with nfree := s.nfree + 1 }

/-! ### Register and latch writes -/

/-- `OL[15:8] <- b` (R14). -/
def State.setOlHi (s : State) (b : Byte) : State := { s with ol := withHi s.ol b }

/-- `OL[7:0] <- b` (R14). -/
def State.setOlLo (s : State) (b : Byte) : State := { s with ol := withLo s.ol b }

/-- `ICR.DEN` (R12). -/
def State.den (s : State) : Bool := bitAt s.icr s.cfg.layoutIcr.den

/-- `ICR.DDW` (R12). -/
def State.ddw (s : State) : Bool := bitAt s.icr s.cfg.layoutIcr.ddw

/-! ### The DMA sequencer's moves -/

/-- `OL[15:8] <- ~CtlReadData()`; `BS <- RD1` (R101). -/
def startRead (s : State) : State :=
  { ((s.dropAnswer.call (.ctlReadData s.nextAnswer)).setOlHi (~~~s.nextAnswer)) with bs := .rd1 }

/-- `DmaEvaluate()`, the start test (R92, R98, R101). -/
def dmaEvaluate (s : State) : State :=
  if s.bs = .idle ∧ s.den = true ∧ s.drq = true then
    if s.ddw then { s with bs := .wr1 } else startRead s
  else s

/-- `WL <- w`; `CtlWriteData(~w[15:8])`; `BS <- WR2` (R99). -/
def acceptWord (s : State) (w : Word) : State :=
  { ({ s with wl := w }.call (.ctlWriteData (~~~hiByte w))) with bs := .wr2 }

/-- `CtlWriteData(~WL[7:0])`; `BS <- Idle` (R100). -/
def sendLowByte (s : State) : State :=
  { s.call (.ctlWriteData (~~~loByte s.wl)) with bs := .idle }

/-- `OL[7:0] <- ~CtlReadData()`; `BS <- RD2` (R102). -/
def readLowByte (s : State) : State :=
  { ((s.dropAnswer.call (.ctlReadData s.nextAnswer)).setOlLo (~~~s.nextAnswer)) with bs := .rd2 }

/-- Terminal count: `DEN <- 0`, `DIP <- 1`, then `FloppyIrqUpdate()` (R104). -/
def terminalCount (s : State) : State :=
  floppyIrqUpdate { s with icr := withBit s.icr s.cfg.layoutIcr.den false, dip := true }

/-- A data-request pulse, by state (R97, R106). -/
def dataRequestPulse (s : State) : State :=
  match s.bs with
  | .idle => if s.den then dmaEvaluate s else s.report (.an3 .idle)
  | .wr2 => sendLowByte s
  | .rd1 => readLowByte s
  | .wr1 => s.report (.an4 .wr1)
  | .rd2 => s.report (.an4 .rd2)

/-! ### The drive control latch -/

/-- The drive a drive-control byte selects: drive 1 unless its enable is inactive, then drive 0 unless its
enable is inactive too; the enables are active-low (R152, R153). -/
def selectionOf (l : DcrLayout) (b : Byte) : Sel :=
  if bitAt b l.drv1 = false then .d1 else if bitAt b l.drv0 = false then .d0 else .none

/-- The four forwarding calls of a drive-control write, in order, with the logical levels (R151, R152). -/
def forwardLevels (s : State) (b : Byte) : State :=
  let l := s.cfg.layoutDcr
  let side := !bitAt b l.side
  (((s.call (.drvSetSide .d0 side)).call (.drvSetSide .d1 side)).call
    (.drvSetMotor .d0 (!bitAt b l.mot0))).call (.drvSetMotor .d1 (!bitAt b l.mot1))

/-- The reset-media-changed strobes: each clears its latch when the written bit is 1 (R154). -/
def strobeMedia (s : State) (b : Byte) : State :=
  let l := s.cfg.layoutDcr
  { s with mc := { d0 := s.mc.d0 && !bitAt b l.rmc0, d1 := s.mc.d1 && !bitAt b l.rmc1 } }

/-- The diagnostic report when both drives are enabled (R157, R215). -/
def diagnoseBoth (s : State) (b : Byte) : State :=
  let l := s.cfg.layoutDcr
  if bitAt b l.drv1 = false ∧ bitAt b l.drv0 = false then s.report (.dg1 b) else s

/-- The new selection; the controller is told only of a change (R155). -/
def routeDrive (s : State) (b : Byte) : State :=
  let newsel := selectionOf s.cfg.layoutDcr b
  if newsel ≠ s.sel then { s with sel := newsel }.call (.ctlSetFloppy newsel) else s

/-- `DriveControlWrite(b)` (R151). -/
def driveControlWrite (s : State) (b : Byte) : State :=
  routeDrive (diagnoseBoth (strobeMedia (forwardLevels { s with dcr := b } b) b) b) b

/-! ### Reset -/

/-- The stored elements at their reset values; the mirrors, the parameters and the streams are kept
(R241, R244). -/
def clearStored (s : State) : State :=
  { s with
    bs := .idle
    icr := 0x00#8, dcr := 0xFF#8, ol := 0x0000#16, wl := 0x0000#16
    dip := false, mc := ⟨false, false⟩, mci := ⟨false, false⟩
    wps := ⟨false, false⟩, sel := .none
    mask := 0x00#8, pend := 0x00#8
    kprev := 0#128, kcur := 0#7, kevt := false, kprs := false }

/-- `ResetAll()` (R241). -/
def resetAll (s : State) : State :=
  floppyIrqUpdate
    ((((((clearStored s).call (.drvSetSide .d0 false)).call (.drvSetSide .d1 false)).call
      (.drvSetMotor .d0 false)).call (.drvSetMotor .d1 false)).call (.ctlSetFloppy .none))

/-! ### The steps of a control write (R121) -/

/-- Step 1, the `RSC` modifier: `ResetAll()` and then `CtlSoftReset()` (R127, R243). -/
def controllerReset (s : State) : State := (resetAll s).call .ctlSoftReset

/-- Step 3, the `CLI` modifier: the interrupt conditions, not the status bits (R126). -/
def clearInterrupts (s : State) : State := { s with dip := false, mci := ⟨false, false⟩ }

/-- Step 4 of `CTL.FDCW`: the byte goes out complemented, the address as it stands (R122). -/
def routeToController (s : State) (ra : BitVec 2) (d : Byte) : State := s.call (.ctlWriteReg ra (~~~d))

/-- Step 4 of `CTL.FDCR`: `OL[7:0] <- ~CtlReadReg(RA)` (R124). -/
def fetchFromController (s : State) (ra : BitVec 2) : State :=
  (s.dropAnswer.call (.ctlReadReg ra s.nextAnswer)).setOlLo (~~~s.nextAnswer)

/-- Step 4 of `CTL.DRVR`: `OL[7:0] <- DCR` (R125, R156). -/
def readBackDrive (s : State) : State := s.setOlLo s.dcr

/-- Steps 1 to 3: the reset if `RSC`, `ICR <- c`, the clear if `CLI`, in that order (R121). -/
def controlWriteOpen (s : State) (rsc cli : Bool) (c : Byte) : State :=
  let s1 := if rsc then controllerReset s else s
  let s2 := { s1 with icr := c }
  if cli then clearInterrupts s2 else s2

/-- Steps 5 to 7: the status byte, the floppy pending bit, the start test (R121, R128, R129). -/
def controlWriteClose (s : State) : State :=
  dmaEvaluate (floppyIrqUpdate (s.setOlHi (statusCompose s)))

/-! ### The keyboard sweep -/

/-- Up to `n` steps of the sweep from cursor `c`: each advances the cursor and then compares; the cursor where
it stops, and whether that step found a difference (R191). -/
def sweep (m kprev : BitVec 128) : Nat → BitVec 7 → BitVec 7 × Bool
  | 0, c => (c, false)
  | n + 1, c =>
    let p := c + 1#7
    if m.getLsbD p.toNat ≠ kprev.getLsbD p.toNat then (p, true) else sweep m kprev n p

/-- The transition at position `p` is accepted: `KPREV[p]`, `KPRS`, `KEVT`, `PEND[0]` (R191). -/
def acceptKey (s : State) (m : BitVec 128) (p : BitVec 7) : State :=
  { s with
    kprev := withBit s.kprev p.toNat (m.getLsbD p.toNat)
    kprs := m.getLsbD p.toNat
    kevt := true
    pend := withBit s.pend 0 true }

/-! ### Taking the next operation -/

/-- The next delivered frame, and the state with it taken from the list (R50). -/
def State.fetch (s : State) : Option (Frame × State) :=
  match s.inbox with
  | [] => none
  | f :: rest => some (f, { s with inbox := rest })

end Sys2Proof.Machine
end

