-- ==== Sys2Proof/Machine/Bridge.lean ====
section
/-! DEFINITION. The register bridge's operations: `WR1` and its four sub-operations, `RD1`, `RD3`, `WR3`
(spec/41_register_bridge.md). A `CTL` row run by itself is the write of index 1 that carries its control word
(R60, R72, R75; notes/assumptions/4.md). -/

namespace Sys2Proof.Machine

/-- `CTL.FDCW` (R122): step 4 writes a controller register. -/
def execCtlFdcw (m : Mods) (ra : BitVec 2) (d : Byte) (s : State) : Host.Outcome State Fault Refusal :=
  let c := ctlByte s.cfg.layoutIcr m true true ra
  .next (controlWriteClose (routeToController (controlWriteOpen s m.rsc m.cli c) ra d))

/-- `CTL.DRVW` (R123): step 4 writes the drive control latch; `RA` is stored and otherwise ignored. -/
def execCtlDrvw (m : Mods) (ra : BitVec 2) (d : Byte) (s : State) : Host.Outcome State Fault Refusal :=
  let c := ctlByte s.cfg.layoutIcr m true false ra
  .next (controlWriteClose (driveControlWrite (controlWriteOpen s m.rsc m.cli c) d))

/-- `CTL.FDCR` (R124): step 4 reads a controller register into `OL[7:0]`; the data byte is ignored. -/
def execCtlFdcr (m : Mods) (ra : BitVec 2) (_d : Byte) (s : State) : Host.Outcome State Fault Refusal :=
  let c := ctlByte s.cfg.layoutIcr m false true ra
  .next (controlWriteClose (fetchFromController (controlWriteOpen s m.rsc m.cli c) ra))

/-- `CTL.DRVR` (R125): step 4 copies `DCR` into `OL[7:0]`; `RA` is stored and otherwise ignored, the data byte
ignored. -/
def execCtlDrvr (m : Mods) (ra : BitVec 2) (_d : Byte) (s : State) : Host.Outcome State Fault Refusal :=
  let c := ctlByte s.cfg.layoutIcr m false false ra
  .next (controlWriteClose (readBackDrive (controlWriteOpen s m.rsc m.cli c)))

/-- `WR1 w` (R121): the control write, step 4 chosen by `ADW` and `SCT` of the written control byte. -/
def execWr1 (w : Word) (s : State) : Host.Outcome State Fault Refusal :=
  let l := s.cfg.layoutIcr
  let c := hiByte w
  let d := loByte w
  let s3 := controlWriteOpen s (bitAt c l.rsc) (bitAt c l.cli) c
  let s4 :=
    if bitAt c l.adw then
      if bitAt c l.sct then routeToController s3 (raOf l c) d else driveControlWrite s3 d
    else
      if bitAt c l.sct then fetchFromController s3 (raOf l c) else readBackDrive s3
  .next (controlWriteClose s4)

/-- `RD1` (R130): returns the output latch as it stands. -/
def execRd1 (s : State) : Host.Outcome State Fault Refusal :=
  .next (s.give (.word s.ol))

/-- `RD3` (R131): returns the parameter `IDX3_READ_VALUE`. -/
def execRd3 (s : State) : Host.Outcome State Fault Refusal :=
  .next (s.give (.word s.cfg.idx3ReadValue))

/-- `WR3 w` (R132): ignored. -/
def execWr3 (_w : Word) (s : State) : Host.Outcome State Fault Refusal :=
  .next s

end Sys2Proof.Machine
end

