-- ==== Sys2Proof/Machine/Dma.lean ====
section
/-! DEFINITION. The DMA transfer sequencer's operations: `WR0`, `WR2`, `RD0`, `RD2`, `DRQ_LINE`
(spec/40_dma_sequencer.md). -/

namespace Sys2Proof.Machine

/-- `WR0 w` (R93): in `WR1` the word is taken; in any other state it is dropped and reported (R105). -/
def execWr0 (w : Word) (s : State) : Host.Outcome State Fault Refusal :=
  if s.bs = .wr1 then .next (acceptWord s w) else .next (s.report (.an2 s.bs 0#2))

/-- `WR2 w` (R94): as `WR0`, and the terminal count if the word was taken (R104). -/
def execWr2 (w : Word) (s : State) : Host.Outcome State Fault Refusal :=
  if s.bs = .wr1 then .next (terminalCount (acceptWord s w)) else .next (s.report (.an2 s.bs 2#2))

/-- `RD0` (R95): returns `OL` in every state; ends the transfer in `RD2`, is reported in any other (R105). -/
def execRd0 (s : State) : Host.Outcome State Fault Refusal :=
  let t := s.give (.word s.ol)
  if s.bs = .rd2 then .next { t with bs := .idle } else .next (t.report (.an1 s.bs 0#2))

/-- `RD2` (R96): as `RD0`, and the terminal count if the transfer ended (R104). -/
def execRd2 (s : State) : Host.Outcome State Fault Refusal :=
  let t := s.give (.word s.ol)
  if s.bs = .rd2 then .next (terminalCount { t with bs := .idle }) else .next (t.report (.an1 s.bs 2#2))

/-- `DRQ_LINE(v)` (R97): the mirror takes the level, and a rising edge is a data-request pulse. -/
def execDrqLine (v : Bool) (s : State) : Host.Outcome State Fault Refusal :=
  let t := { s with drq := v }
  if s.drq = false ∧ v = true then .next (dataRequestPulse t) else .next t

end Sys2Proof.Machine
end

