-- ==== Sys2Proof/Machine/Interrupt.lean ====
section
/-! DEFINITION. The interrupt aggregator's ports: `SETMASK`, `SETPEND` (spec/44_interrupt_aggregator.md). -/

namespace Sys2Proof.Machine

/-- `SETMASK(i, v)` (R171): every bit can be written. -/
def execSetmask (i : BitVec 3) (v : Bool) (s : State) : Host.Outcome State Fault Refusal :=
  .next { s with mask := withBit s.mask i.toNat v }

/-- `SETPEND(i, v)` (R172); bits 0 and 4 belong to the block, and the spec has a model refuse them (R176). -/
def execSetpend (i : BitVec 3) (v : Bool) (s : State) : Host.Outcome State Fault Refusal :=
  if ownedPendBit i then .refused (.pendBitOwned i) else .next { s with pend := withBit s.pend i.toNat v }

end Sys2Proof.Machine
end

