-- ==== Sys2Proof/Machine/Keyboard.lean ====
section
/-! DEFINITION. The keyboard scanner's operations: `KTICK`, `KACK` (spec/45_keyboard_scanner.md). -/

namespace Sys2Proof.Machine

/-- `KTICK(m)` (R191): nothing while an event is held; else one sweep of 128 steps that stops at the first
difference. -/
def execKtick (m : BitVec 128) (s : State) : Host.Outcome State Fault Refusal :=
  if s.kevt then .next s
  else
    let stop := sweep m s.kprev 128 s.kcur
    let t := { s with kcur := stop.1 }
    if stop.2 then .next (acceptKey t m stop.1) else .next t

/-- `KACK` (R192): returns `(KCUR, KPRS)` and re-enables scanning, with no condition. -/
def execKack (s : State) : Host.Outcome State Fault Refusal :=
  .next { s.give (.key s.kcur s.kprs) with kevt := false, pend := withBit s.pend 0 false }

end Sys2Proof.Machine
end

