-- ==== Sys2Proof/Machine/Lines.lean ====
section
/-! DEFINITION. The device-side line operations: `FIRQ_LINE`, `RDY_LINE`, `WP_LINE`, `IDX_LINE`, `MCHG`
(spec/42_status_aggregator.md). -/

namespace Sys2Proof.Machine

/-- `FIRQ_LINE(v)` (R141). -/
def execFirqLine (v : Bool) (s : State) : Host.Outcome State Fault Refusal :=
  .next (floppyIrqUpdate { s with firq := v })

/-- `RDY_LINE(d, v)` (R142): heard from both drives, selected or not. -/
def execRdyLine (d : Drive) (v : Bool) (s : State) : Host.Outcome State Fault Refusal :=
  .next { s with rdy := s.rdy.set d v }

/-- Whether drive `d` is the selected drive (R143). -/
def isSelected (d : Drive) (sel : Sel) : Bool :=
  match d with
  | .d0 => sel == .d0
  | .d1 => sel == .d1

/-- `WP_LINE(d, v)` (R143): heard from the selected drive only; a falling line sets the latch, a rising line
clears it. -/
def execWpLine (d : Drive) (v : Bool) (s : State) : Host.Outcome State Fault Refusal :=
  if isSelected d s.sel then .next { s with wps := s.wps.set d (!v) } else .next s

/-- `IDX_LINE(d, v)` (R144): accepted, with no effect on any element. -/
def execIdxLine (_d : Drive) (_v : Bool) (s : State) : Host.Outcome State Fault Refusal :=
  .next s

/-- `MCHG(d)` (R145): both latches of the drive are set, every time. -/
def execMchg (d : Drive) (s : State) : Host.Outcome State Fault Refusal :=
  .next (floppyIrqUpdate { s with mc := s.mc.set d true, mci := s.mci.set d true })

end Sys2Proof.Machine
end

