-- ==== Sys2Proof/Machine/SystemReset.lean ====
section
/-! DEFINITION. The system reset, `RESET` (spec/70_reset_and_hazards.md R242). -/

namespace Sys2Proof.Machine

/-- `RESET` (R242): `ResetAll()` and nothing else; no `CtlSoftReset()`. -/
def execReset (s : State) : Host.Outcome State Fault Refusal :=
  .next (resetAll s)

end Sys2Proof.Machine
end

