-- ==== Sys2Proof/Machine/Dispatch.lean ====
section
/-! DEFINITION. One arm per operation of spec/30_encoding.md R75. -/

namespace Sys2Proof.Machine

def exec (i : Instr) (s : State) : Host.Outcome State Fault Refusal :=
  match i with
  | .rd0 => Sys2Proof.Machine.execRd0 s
  | .rd1 => Sys2Proof.Machine.execRd1 s
  | .rd2 => Sys2Proof.Machine.execRd2 s
  | .rd3 => Sys2Proof.Machine.execRd3 s
  | .wr0 w => Sys2Proof.Machine.execWr0 w s
  | .wr1 w => Sys2Proof.Machine.execWr1 w s
  | .wr2 w => Sys2Proof.Machine.execWr2 w s
  | .wr3 w => Sys2Proof.Machine.execWr3 w s
  | .ctlFdcw m ra d => Sys2Proof.Machine.execCtlFdcw m ra d s
  | .ctlDrvw m ra d => Sys2Proof.Machine.execCtlDrvw m ra d s
  | .ctlFdcr m ra d => Sys2Proof.Machine.execCtlFdcr m ra d s
  | .ctlDrvr m ra d => Sys2Proof.Machine.execCtlDrvr m ra d s
  | .reset => Sys2Proof.Machine.execReset s
  | .drqLine v => Sys2Proof.Machine.execDrqLine v s
  | .firqLine v => Sys2Proof.Machine.execFirqLine v s
  | .rdyLine d v => Sys2Proof.Machine.execRdyLine d v s
  | .wpLine d v => Sys2Proof.Machine.execWpLine d v s
  | .idxLine d v => Sys2Proof.Machine.execIdxLine d v s
  | .mchg d => Sys2Proof.Machine.execMchg d s
  | .ktick m => Sys2Proof.Machine.execKtick m s
  | .kack => Sys2Proof.Machine.execKack s
  | .setmask k v => Sys2Proof.Machine.execSetmask k v s
  | .setpend k v => Sys2Proof.Machine.execSetpend k v s

end Sys2Proof.Machine
end

