-- ==== Sys2Proof/Machine/Step.lean ====
section
/-! DEFINITION. One step: the next delivered operation is taken, decoded and run (spec/20_memory.md R50). -/

namespace Sys2Proof.Machine

/-- One step. With nothing delivered the state persists (R108: "until the next external stimulus"); a frame that
is no operation of the block is refused by name (R42; notes/assumptions/1.md, 11.md). -/
def step (s : State) : Host.Outcome State Fault Refusal :=
  match s.fetch with
  | none => .next s
  | some (f, rest) =>
    match decode s.cfg.layoutIcr f with
    | .ok i => exec i rest
    | .error e => .refused (.undecodable e)

/-- `s` with the operation the opcode table numbers `w` in `nbits` bits delivered as the next one: before the
operations already delivered, nothing else changed (notes/assumptions/1.md). -/
def State.withFetchWord (s : State) (nbits w : Nat) : State :=
  { s with inbox := tableFrame nbits w :: s.inbox }

end Sys2Proof.Machine
end

