-- ==== Sys2Proof/Safety.lean ====
section
/-! DEFINITION. The terms claims are stated in: the invariant of the block's states, which operations reset the block
or are control writes, and what a control write leaves. -/

namespace Sys2Proof.Machine

/-! ### The invariant -/

/-- The two owned pending bits are functions of other state: `PEND[0] = KEVT` and
`PEND[4] = DIP | MCI[0] | MCI[1] | (FDC_IRQ_IN_AGG & FIRQ)` (R31). -/
abbrev State.PendingOwned (s : State) : Prop :=
  s.pend.getLsbD 0 = s.kevt ∧
  s.pend.getLsbD 4 = (s.dip || s.mci.d0 || s.mci.d1 || (s.cfg.fdcIrqInAgg && s.firq))

/-- The selection is the one the stored drive-control byte names: drive 1 unless its active-low enable is
inactive, then drive 0 unless its own is (R20, R153). -/
abbrev State.SelectionOfLatch (s : State) : Prop :=
  s.sel = if s.dcr.getLsbD s.cfg.layoutDcr.drv1 = false then Sel.d1
    else if s.dcr.getLsbD s.cfg.layoutDcr.drv0 = false then Sel.d0 else Sel.none

/-- While an event is held, the accepted level of the position under the cursor is the pressed flag
(R23, R24, R26, R191). -/
abbrev State.EventRecorded (s : State) : Prop :=
  s.kevt = true → s.kprev.getLsbD s.kcur.toNat = s.kprs

/-- The invariant every operation keeps. -/
abbrev State.Inv (s : State) : Prop :=
  s.PendingOwned ∧ s.SelectionOfLatch ∧ s.EventRecorded ∧ s.cfg.Wf

/-! ### Kinds of operation -/

/-- The modifiers of a control write, read through the layout in force; none for any other operation. -/
def controlMods (l : IcrLayout) : Instr → Option Mods
  | .wr1 w => some (modsOf l (hiByte w))
  | .ctlFdcw m _ _ => some m
  | .ctlDrvw m _ _ => some m
  | .ctlFdcr m _ _ => some m
  | .ctlDrvr m _ _ => some m
  | .rd0 | .rd1 | .rd2 | .rd3 | .wr0 _ | .wr2 _ | .wr3 _ | .reset | .drqLine _ | .firqLine _ | .rdyLine _ _
  | .wpLine _ _ | .idxLine _ _ | .mchg _ | .ktick _ | .kack | .setmask _ _ | .setpend _ _ => none

/-- The operation is a control write (R121). -/
def isControlWrite (l : IcrLayout) (i : Instr) : Bool := (controlMods l i).isSome

/-- The operation resets the block: the system reset, or a control write with `RSC` = 1 (R240). -/
def resetsBlock (l : IcrLayout) (i : Instr) : Bool :=
  i == .reset || ((controlMods l i).map (·.rsc)).getD false

/-- The operation is a control write with `CLI` = 1 (R126). -/
def clearsInterrupts (l : IcrLayout) (i : Instr) : Bool := ((controlMods l i).map (·.cli)).getD false

/-- The byte a `CTL.DRVW` writes into the drive control latch; none for any other operation (R123). -/
def driveByte (l : IcrLayout) : Instr → Option Byte
  | .wr1 w =>
    if (hiByte w).getLsbD l.adw = true ∧ (hiByte w).getLsbD l.sct = false then some (loByte w) else none
  | .ctlDrvw _ _ d => some d
  | .ctlFdcw _ _ _ | .ctlFdcr _ _ _ | .ctlDrvr _ _ _
  | .rd0 | .rd1 | .rd2 | .rd3 | .wr0 _ | .wr2 _ | .wr3 _ | .reset | .drqLine _ | .firqLine _ | .rdyLine _ _
  | .wpLine _ _ | .idxLine _ _ | .mchg _ | .ktick _ | .kack | .setmask _ _ | .setpend _ _ => none

/-! ### The sequencer -/

/-- The six transitions of the sequencer (R91, R98 to R103). -/
def sixTransitions : List (Bs × Bs) :=
  [(.idle, .wr1), (.wr1, .wr2), (.wr2, .idle), (.idle, .rd1), (.rd1, .rd2), (.rd2, .idle)]

/-- A CPU access at a DMA index, 0 or 2 (R41, R216). -/
def isDmaAccess : Instr → Bool
  | .rd0 | .rd2 | .wr0 _ | .wr2 _ => true
  | .rd1 | .rd3 | .wr1 _ | .wr3 _ | .ctlFdcw _ _ _ | .ctlDrvw _ _ _ | .ctlFdcr _ _ _ | .ctlDrvr _ _ _ | .reset
  | .drqLine _ | .firqLine _ | .rdyLine _ _ | .wpLine _ _ | .idxLine _ _ | .mchg _ | .ktick _ | .kack
  | .setmask _ _ | .setpend _ _ => false

/-- A protocol anomaly, as against the diagnostic report `DG1` (R210, R215). -/
def isAnomaly : Report → Bool
  | .an1 _ _ | .an2 _ _ | .an3 _ | .an4 _ => true
  | .dg1 _ => false

/-- What an operation returns to the CPU from the DMA indices: `OL` for a read, nothing for the rest (R95, R96). -/
def dmaReadResult (s : State) : Instr → List Result
  | .rd0 | .rd2 => [.word s.ol]
  | .rd1 | .rd3 | .wr0 _ | .wr1 _ | .wr2 _ | .wr3 _ | .ctlFdcw _ _ _ | .ctlDrvw _ _ _ | .ctlFdcr _ _ _
  | .ctlDrvr _ _ _ | .reset | .drqLine _ | .firqLine _ | .rdyLine _ _ | .wpLine _ _ | .idxLine _ _ | .mchg _
  | .ktick _ | .kack | .setmask _ _ | .setpend _ _ => []

/-! ### What a control write leaves, over the state its first step leaves -/

/-- Step 1 of a control write takes `s` to `r`: nothing with `RSC` = 0; with `RSC` = 1 the system reset and then the
call `CtlSoftReset()` (R121, R127, R243). -/
abbrev StepOne (m : Mods) (s r : State) : Prop :=
  (m.rsc = false ∧ r = s) ∨
  (m.rsc = true ∧ ∃ u, exec .reset s = .next u ∧ r = { u with calls := u.calls ++ [.ctlSoftReset] })

/-- A control write with modifiers `m` from `s` starts a transfer: `BS = Idle`, `DEN = 1`, `DRQ = 1` (R92). -/
abbrev Starts (m : Mods) (s : State) : Prop := s.bs = .idle ∧ m.den = true ∧ s.drq = true

/-- What every control write does from the state `s` its step 1 leaves, whichever its sub-operation: `ICR` holds
the written control byte, `CLI` clears `DIP` and `MCI` and nothing else does, `PEND[4]` is recomputed (R121 steps
2, 3, 6), and what steps 2 to 7 do not touch is as before. -/
structure ControlWriteShared (m : Mods) (adw sct : Bool) (ra : BitVec 2) (s t : State) : Prop where
  icr_mods : modsOf s.cfg.layoutIcr t.icr = m
  icr_adw : t.icr.getLsbD s.cfg.layoutIcr.adw = adw
  icr_sct : t.icr.getLsbD s.cfg.layoutIcr.sct = sct
  icr_ra : raOf s.cfg.layoutIcr t.icr = ra
  dip : t.dip = (s.dip && !m.cli)
  mci : t.mci = if m.cli then ⟨false, false⟩ else s.mci
  pend_floppy : t.pend.getLsbD 4 = (t.dip || t.mci.d0 || t.mci.d1 || (s.cfg.fdcIrqInAgg && s.firq))
  pend_others : ∀ k, k ≠ 4 → t.pend.getLsbD k = s.pend.getLsbD k
  wl : t.wl = s.wl
  wps : t.wps = s.wps
  mask : t.mask = s.mask
  kprev : t.kprev = s.kprev
  kcur : t.kcur = s.kcur
  kevt : t.kevt = s.kevt
  kprs : t.kprs = s.kprs
  drq : t.drq = s.drq
  firq : t.firq = s.firq
  rdy : t.rdy = s.rdy
  cfg : t.cfg = s.cfg
  inbox : t.inbox = s.inbox
  results : t.results = s.results

/-- The end of a control write from the state `s` its step 1 leaves, whose steps up to 4 made `calls` and left
`OL[7:0]` at `low`, with `u` the state whose next answer a read takes: the status byte is in `OL[15:8]` unless a read transfer starts, which puts the
complement of the controller's byte there (R128, R129, R250). -/
structure ControlWriteEnd (m : Mods) (s u t : State) (calls : List Call) (low : Byte) : Prop where
  ol_low : loByte t.ol = low
  no_start : ¬ Starts m s → t.bs = s.bs ∧ t.calls = calls ∧ hiByte t.ol = statusCompose t ∧
    t.answers = u.answers ∧ t.nfree = u.nfree
  start_write : Starts m s → m.ddw = true → t.bs = .wr1 ∧ t.calls = calls ∧ hiByte t.ol = statusCompose t ∧
    t.answers = u.answers ∧ t.nfree = u.nfree
  start_read : Starts m s → m.ddw = false → t.bs = .rd1 ∧
    t.calls = calls ++ [.ctlReadData u.nextAnswer] ∧ hiByte t.ol = ~~~u.nextAnswer ∧
    t.answers = u.dropAnswer.answers ∧ t.nfree = u.dropAnswer.nfree

/-- The five calls of `ResetAll()`, in order (R241). -/
def resetCalls : List Call :=
  [.drvSetSide .d0 false, .drvSetSide .d1 false, .drvSetMotor .d0 false, .drvSetMotor .d1 false,
   .ctlSetFloppy .none]

end Sys2Proof.Machine
end

