-- ==== Sys2Proof/Certificates/Slice0/Obligations.lean ====
section
/-! DEFINITION. The statements for the provers. Each docstring names the rule of spec/ it formalises. A statement
about one operation gives its whole next state, so it says what the operation changes and that it changes nothing
else. -/

open Sys2Proof Sys2Proof.Machine

/-! ### Encoding, decoding, one step -/

/-- Decoding the frame of any operation gives it back, under every layout of the control byte (R61, R62, R70).
How a frame lays its bytes out is the model's choice (notes/assumptions/2.md). -/
def Obligations.EncodeThenDecodeIsIdentity : Prop :=
  ∀ (l : IcrLayout) (i : Instr), l.Wf → decode l (encode l i) = .ok i

/-- A frame that decodes is the frame of what it decodes to: no two frames are one operation, and no bit of a
frame is dropped (R61, R62, R70). How a frame lays its bytes out is the model's choice (notes/assumptions/2.md). -/
def Obligations.DecodeThenEncodeIsIdentity : Prop :=
  ∀ (l : IcrLayout) (f : Frame) (i : Instr), l.Wf → decode l f = .ok i → encode l i = f

/-- Words written out from the encodings of R61, R62 and R70 (the "enc" column of 95_test_vectors.md) decode to the
operations they stand for. The spec gives the bits of a descriptor, a control word and an event code and no byte
layout: the descriptor in a byte of its own and the word low byte first in the frames of `WR1`, `CTL.FDCW` and
`CTL.DRVW` are the model's choice (notes/assumptions/2.md). -/
def Obligations.SpecWordsDecode : Prop :=
  decode IcrLayout.standard ⟨.bus, [0b00000000#8]⟩ = .ok .rd0 ∧
  decode IcrLayout.standard ⟨.bus, [0b00000101#8, 0x55#8, 0x0C#8]⟩ = .ok (.wr1 0x0C55#16) ∧
  decode IcrLayout.standard ⟨.ctl, [0x55#8, 0x0C#8]⟩ = .ok (.ctlFdcw ⟨false, false, false, false⟩ 0#2 0x55#8) ∧
  decode IcrLayout.standard ⟨.ctl, [0xD8#8, 0x98#8]⟩ = .ok (.ctlDrvw ⟨true, false, false, true⟩ 0#2 0xD8#8) ∧
  decode IcrLayout.standard ⟨.evt, [0x00#8]⟩ = .ok .reset ∧
  decode IcrLayout.standard ⟨.evt, [0x11#8]⟩ = .ok (.drqLine true) ∧
  decode IcrLayout.standard ⟨.evt, [0x42#8]⟩ = .ok (.wpLine .d1 false) ∧
  decode IcrLayout.standard ⟨.evt, [0x80#8]⟩ = .ok .kack ∧
  decode IcrLayout.standard ⟨.evt, [0x99#8]⟩ = .ok (.setmask 4#3 true) ∧
  decode IcrLayout.standard ⟨.evt, [0xAF#8]⟩ = .ok (.setpend 7#3 true)

/-- A step takes the first delivered frame and runs the operation it decodes to on the state without that frame;
with nothing delivered the state persists (R50, R108). The list of delivered frames is the model's choice
(notes/assumptions/1.md). -/
def Obligations.StepRunsDecodedOperation : Prop :=
  (∀ (s : State) (f : Frame) (rest : List Frame) (i : Instr),
    s.inbox = f :: rest → decode s.cfg.layoutIcr f = .ok i → step s = exec i { s with inbox := rest }) ∧
  ∀ s : State, s.inbox = [] → step s = .next s

/-- An access of the window that carries less than one whole word on a write is refused by name (R42). The form of
the refusal and of the frame are the model's choice (notes/assumptions/2.md, 11.md). -/
def Obligations.NarrowWriteRefused : Prop :=
  ∀ (s : State) (index : BitVec 2) (data : List Byte) (rest : List Frame),
    data.length < 2 → s.inbox = ⟨.bus, (1#6 ++ index) :: data⟩ :: rest →
    step s = .refused (.undecodable .accessWidth)

/-- Every operation of the interface completes, whatever the state: nothing is fatal (R210). -/
def Obligations.EveryOperationCompletes : Prop :=
  ∀ (i : Instr) (s : State), WellFormed i = true → ∃ t, exec i s = .next t

/-! ### The DMA transfer sequencer -/

/-- `WR0 w` (R93, R99, R105). -/
def Obligations.WriteIndexZero : Prop :=
  ∀ (w : Word) (s : State),
    (s.bs = .wr1 → s.dmar = true ∧ ∃ t, exec (.wr0 w) s = .next t ∧ t.dmar = false ∧
      t = { s with wl := w, bs := .wr2, calls := s.calls ++ [.ctlWriteData (~~~ w.extractLsb' 8 8)] }) ∧
    (s.bs ≠ .wr1 → exec (.wr0 w) s = .next { s with reports := s.reports ++ [.an2 s.bs 0#2] })

/-- `WR2 w` (R94, R104): as `WR0`, and in turn `DEN` alone of `ICR` is cleared, `DIP` set, `PEND[4]` set. -/
def Obligations.WriteIndexTwo : Prop :=
  ∀ (w : Word) (s : State),
    (s.bs = .wr1 → s.dmar = true ∧ ∃ t, exec (.wr2 w) s = .next t ∧ t.dmar = false ∧
      (s.mask.getLsbD 4 = true → t.irq = true) ∧
      (∀ k, t.icr.getLsbD k = if k = s.cfg.layoutIcr.den.val then false else s.icr.getLsbD k) ∧
      (∀ k, t.pend.getLsbD k = if k = 4 then true else s.pend.getLsbD k) ∧
      t = { s with
            wl := w, bs := .wr2, icr := t.icr, dip := true, pend := t.pend
            calls := s.calls ++ [.ctlWriteData (~~~ w.extractLsb' 8 8)] }) ∧
    (s.bs ≠ .wr1 → exec (.wr2 w) s = .next { s with reports := s.reports ++ [.an2 s.bs 2#2] })

/-- `RD0` (R95, R103, R105). -/
def Obligations.ReadIndexZero : Prop :=
  ∀ s : State,
    (s.bs = .rd2 → s.dmar = true ∧ ∃ t, exec .rd0 s = .next t ∧ t.dmar = false ∧
      t = { s with bs := .idle, results := s.results ++ [.word s.ol] }) ∧
    (s.bs ≠ .rd2 → exec .rd0 s =
      .next { s with results := s.results ++ [.word s.ol], reports := s.reports ++ [.an1 s.bs 0#2] })

/-- `RD2` (R96, R104): as `RD0`, and in turn `DEN` alone of `ICR` is cleared, `DIP` set, `PEND[4]` set. -/
def Obligations.ReadIndexTwo : Prop :=
  ∀ s : State,
    (s.bs = .rd2 → s.dmar = true ∧ ∃ t, exec .rd2 s = .next t ∧ t.dmar = false ∧
      (s.mask.getLsbD 4 = true → t.irq = true) ∧
      (∀ k, t.icr.getLsbD k = if k = s.cfg.layoutIcr.den.val then false else s.icr.getLsbD k) ∧
      (∀ k, t.pend.getLsbD k = if k = 4 then true else s.pend.getLsbD k) ∧
      t = { s with
            bs := .idle, icr := t.icr, dip := true, pend := t.pend
            results := s.results ++ [.word s.ol] }) ∧
    (s.bs ≠ .rd2 → exec .rd2 s =
      .next { s with results := s.results ++ [.word s.ol], reports := s.reports ++ [.an1 s.bs 2#2] })

/-- `DRQ_LINE(v)` (R97, R98, R100, R101, R102, R106): a repeat does nothing, a fall updates the mirror, and a rise
is a pulse, which moves a byte, starts a transfer or is reported, by the state. -/
def Obligations.DataRequestLine : Prop :=
  ∀ s : State,
    exec (.drqLine s.drq) s = .next s ∧
    exec (.drqLine false) s = .next { s with drq := false } ∧
    (s.drq = false → s.bs = .idle → s.icr.getLsbD s.cfg.layoutIcr.den = true →
      s.icr.getLsbD s.cfg.layoutIcr.ddw = true →
      exec (.drqLine true) s = .next { s with drq := true, bs := .wr1 }) ∧
    (s.drq = false → s.bs = .idle → s.icr.getLsbD s.cfg.layoutIcr.den = true →
      s.icr.getLsbD s.cfg.layoutIcr.ddw = false →
      exec (.drqLine true) s =
        .next { s.dropAnswer with
                drq := true, bs := .rd1
                ol := (~~~ s.nextAnswer) ++ s.ol.extractLsb' 0 8
                calls := s.calls ++ [.ctlReadData s.nextAnswer] }) ∧
    (s.drq = false → s.bs = .idle → s.icr.getLsbD s.cfg.layoutIcr.den = false →
      exec (.drqLine true) s = .next { s with drq := true, reports := s.reports ++ [.an3 .idle] }) ∧
    (s.drq = false → s.bs = .wr2 →
      exec (.drqLine true) s =
        .next { s with
                drq := true, bs := .idle
                calls := s.calls ++ [.ctlWriteData (~~~ s.wl.extractLsb' 0 8)] }) ∧
    (s.drq = false → s.bs = .rd1 →
      exec (.drqLine true) s =
        .next { s.dropAnswer with
                drq := true, bs := .rd2
                ol := s.ol.extractLsb' 8 8 ++ ~~~ s.nextAnswer
                calls := s.calls ++ [.ctlReadData s.nextAnswer] }) ∧
    (s.drq = false → s.bs = .wr1 ∨ s.bs = .rd2 →
      exec (.drqLine true) s = .next { s with drq := true, reports := s.reports ++ [.an4 s.bs] })

/-- `DMAR = 1` exactly in `WR1` and `RD2` (R107). -/
def Obligations.DmaRequestOutput : Prop :=
  ∀ s : State, s.dmar = true ↔ s.bs = .wr1 ∨ s.bs = .rd2

/-- Each access at a DMA index and each rise of the data-request line makes one of the six transitions with no
report, or exactly one anomaly report with nothing else changed but the mirror of the line (R216). -/
def Obligations.OneTransitionOrOneAnomaly : Prop :=
  ∀ (i : Instr) (s : State), (isDmaAccess i = true ∨ (i = .drqLine true ∧ s.drq = false)) →
    ∃ t, exec i s = .next t ∧ t.results = s.results ++ dmaReadResult s i ∧
      ((t.reports = s.reports ∧ (s.bs, t.bs) ∈ sixTransitions) ∨
       (∃ r, isAnomaly r = true ∧
         t = { s with
               drq := (s.drq || i == .drqLine true)
               results := s.results ++ dmaReadResult s i, reports := s.reports ++ [r] }))

/-- An operation that does not reset the block changes `BS` only by a listed transition on its listed stimulus
(R91, R108). -/
def Obligations.OnlyListedStimuliMoveTheSequencer : Prop :=
  ∀ (i : Instr) (s t : State), resetsBlock s.cfg.layoutIcr i = false → exec i s = .next t → t.bs ≠ s.bs →
    (s.bs = .idle ∧ t.bs = .wr1 ∧ t.drq = true ∧ t.icr.getLsbD s.cfg.layoutIcr.den = true ∧
      t.icr.getLsbD s.cfg.layoutIcr.ddw = true ∧
      (isControlWrite s.cfg.layoutIcr i = true ∨ (i = .drqLine true ∧ s.drq = false))) ∨
    (s.bs = .idle ∧ t.bs = .rd1 ∧ t.drq = true ∧ t.icr.getLsbD s.cfg.layoutIcr.den = true ∧
      t.icr.getLsbD s.cfg.layoutIcr.ddw = false ∧
      (isControlWrite s.cfg.layoutIcr i = true ∨ (i = .drqLine true ∧ s.drq = false))) ∨
    (s.bs = .wr1 ∧ t.bs = .wr2 ∧ ∃ w, i = .wr0 w ∨ i = .wr2 w) ∨
    (s.bs = .wr2 ∧ t.bs = .idle ∧ i = .drqLine true ∧ s.drq = false) ∨
    (s.bs = .rd1 ∧ t.bs = .rd2 ∧ i = .drqLine true ∧ s.drq = false) ∨
    (s.bs = .rd2 ∧ t.bs = .idle ∧ (i = .rd0 ∨ i = .rd2))

/-- A control write without `RSC` in a phase state does not abort the transfer: `BS` and `WL` are unchanged and no
anomaly is reported, while `ICR` is rewritten (40_dma_sequencer.md section 4, (a); 70_reset_and_hazards.md
section 3). The spec marks this as its own inference. -/
def Obligations.ControlWriteDoesNotAbortTransfer : Prop :=
  ∀ (i : Instr) (m : Mods) (s : State), s.cfg.layoutIcr.Wf → controlMods s.cfg.layoutIcr i = some m →
    m.rsc = false → s.bs ≠ .idle →
    ∃ t new, exec i s = .next t ∧ t.bs = s.bs ∧ t.wl = s.wl ∧ modsOf s.cfg.layoutIcr t.icr = m ∧
      t.reports = s.reports ++ new ∧ ∀ r ∈ new, isAnomaly r = false

/-- A word written through both phases reaches the controller as exactly two complemented bytes, high then low, and
the sequencer is back in `Idle` (40_dma_sequencer.md section 4, the round trip the spec derives; the fall of the
line between the two pulses is the environment's). -/
def Obligations.WriteRoundTrip : Prop :=
  ∀ (s : State) (w : Word) (i : Instr), (i = .wr0 w ∨ i = .wr2 w) → s.bs = .idle → s.drq = false →
    s.icr.getLsbD s.cfg.layoutIcr.den = true → s.icr.getLsbD s.cfg.layoutIcr.ddw = true →
    ∃ t1 t2 t3 t4, exec (.drqLine true) s = .next t1 ∧ exec i t1 = .next t2 ∧
      exec (.drqLine false) t2 = .next t3 ∧ exec (.drqLine true) t3 = .next t4 ∧ t4.bs = .idle ∧
      t4.reports = s.reports ∧
      t4.calls = s.calls ++ [.ctlWriteData (~~~ w.extractLsb' 8 8), .ctlWriteData (~~~ w.extractLsb' 0 8)]

/-- The mirror image for reading: two bytes are read, and the CPU gets the first complemented as the high half and
the second complemented as the low half (40_dma_sequencer.md section 4). -/
def Obligations.ReadRoundTrip : Prop :=
  ∀ (s : State) (i : Instr), (i = .rd0 ∨ i = .rd2) → s.bs = .idle → s.drq = false →
    s.icr.getLsbD s.cfg.layoutIcr.den = true → s.icr.getLsbD s.cfg.layoutIcr.ddw = false →
    ∃ t1 t2 t3 t4 b1 b2, exec (.drqLine true) s = .next t1 ∧ exec (.drqLine false) t1 = .next t2 ∧
      exec (.drqLine true) t2 = .next t3 ∧ exec i t3 = .next t4 ∧ t4.bs = .idle ∧ t4.reports = s.reports ∧
      t4.calls = s.calls ++ [.ctlReadData b1, .ctlReadData b2] ∧
      t4.results = s.results ++ [.word ((~~~ b1) ++ ~~~ b2)]

/-! ### The register bridge -/

/-- `CTL.FDCW` (R122): from the state `r` step 1 leaves, one `CtlWriteReg` with the byte complemented and the address
as written; `OL[7:0]` keeps its value. -/
def Obligations.ControlWriteToController : Prop :=
  ∀ (m : Mods) (ra : BitVec 2) (d : Byte) (s r : State), s.cfg.layoutIcr.Wf → StepOne m s r →
    ∃ t, exec (.ctlFdcw m ra d) s = .next t ∧ ControlWriteShared m true true ra r t ∧
      ControlWriteEnd m r r t (r.calls ++ [.ctlWriteReg ra (~~~ d)]) (r.ol.extractLsb' 0 8) ∧
      t.dcr = r.dcr ∧ t.sel = r.sel ∧ t.mc = r.mc ∧ t.reports = r.reports

/-- `CTL.FDCR` (R124): from the state `r` step 1 leaves, `OL[7:0]` takes the complement of the controller's
answer (the next the environment holds, else a free value, notes/assumptions/5.md); the data byte is ignored. -/
def Obligations.ControlReadFromController : Prop :=
  ∀ (m : Mods) (ra : BitVec 2) (d : Byte) (s r : State), s.cfg.layoutIcr.Wf → StepOne m s r →
    ∃ t, exec (.ctlFdcr m ra d) s = .next t ∧ ControlWriteShared m false true ra r t ∧
      ControlWriteEnd m r r.dropAnswer t (r.calls ++ [.ctlReadReg ra r.nextAnswer]) (~~~ r.nextAnswer) ∧
      t.dcr = r.dcr ∧ t.sel = r.sel ∧ t.mc = r.mc ∧ t.reports = r.reports

/-- `CTL.DRVR` (R125, R156): from the state `r` step 1 leaves, `OL[7:0]` takes `DCR` as written; `RA` and the data
byte are ignored. -/
def Obligations.ControlReadBackDrive : Prop :=
  ∀ (m : Mods) (ra : BitVec 2) (d : Byte) (s r : State), s.cfg.layoutIcr.Wf → StepOne m s r →
    ∃ t, exec (.ctlDrvr m ra d) s = .next t ∧ ControlWriteShared m false false ra r t ∧
      ControlWriteEnd m r r t r.calls r.dcr ∧
      t.dcr = r.dcr ∧ t.sel = r.sel ∧ t.mc = r.mc ∧ t.reports = r.reports

/-- `CTL.DRVW` (R123, R151, R152, R153, R154): from the state `r` step 1 leaves, the byte is stored as written, the
logical levels are forwarded, the strobes clear the media-changed latches, drive 1 wins the selection, and the
controller is told of a change of selection only. -/
def Obligations.ControlWriteToDriveLatch : Prop :=
  ∀ (m : Mods) (ra : BitVec 2) (d : Byte) (s r : State), s.cfg.layoutIcr.Wf → StepOne m s r →
    ∃ t, exec (.ctlDrvw m ra d) s = .next t ∧ ControlWriteShared m true false ra r t ∧ t.dcr = d ∧
      t.mc.d0 = (r.mc.d0 && !d.getLsbD s.cfg.layoutDcr.rmc0) ∧
      t.mc.d1 = (r.mc.d1 && !d.getLsbD s.cfg.layoutDcr.rmc1) ∧
      (d.getLsbD s.cfg.layoutDcr.drv1 = false → t.sel = .d1) ∧
      (d.getLsbD s.cfg.layoutDcr.drv1 = true → d.getLsbD s.cfg.layoutDcr.drv0 = false → t.sel = .d0) ∧
      (d.getLsbD s.cfg.layoutDcr.drv1 = true → d.getLsbD s.cfg.layoutDcr.drv0 = true → t.sel = .none) ∧
      t.reports = r.reports ++
        (if d.getLsbD s.cfg.layoutDcr.drv1 = false ∧ d.getLsbD s.cfg.layoutDcr.drv0 = false then [.dg1 d] else []) ∧
      ControlWriteEnd m r r t
        (r.calls ++
          [.drvSetSide .d0 (!d.getLsbD s.cfg.layoutDcr.side), .drvSetSide .d1 (!d.getLsbD s.cfg.layoutDcr.side),
           .drvSetMotor .d0 (!d.getLsbD s.cfg.layoutDcr.mot0),
           .drvSetMotor .d1 (!d.getLsbD s.cfg.layoutDcr.mot1)] ++
          (if t.sel = r.sel then [] else [.ctlSetFloppy t.sel]))
        (r.ol.extractLsb' 0 8)

/-- A write of index 1 is the sub-operation its `ADW` and `SCT` bits name, with the fields of its word (R72, R75). The
control word in a frame of its own is the model's choice (notes/assumptions/2.md, 4.md). -/
def Obligations.ControlWordRunsItsSubOperation : Prop :=
  ∀ (w : Word) (s : State), s.cfg.layoutIcr.Wf →
    ∃ i, decode s.cfg.layoutIcr ⟨.ctl, [w.extractLsb' 0 8, w.extractLsb' 8 8]⟩ = .ok i ∧
      exec (.wr1 w) s = exec i s

/-- The interface calls of one control write, in order (R133): those of the reset and the soft reset, then exactly
one of the sub-operation's, then at most one `CtlReadData` when a read transfer starts. -/
def Obligations.ControlWriteCallOrder : Prop :=
  ∀ (w : Word) (s : State),
    let l := s.cfg.layoutIcr
    let k := s.cfg.layoutDcr
    let c : Byte := w.extractLsb' 8 8
    let d : Byte := w.extractLsb' 0 8
    let rsc := c.getLsbD l.rsc
    let oldSel := if rsc then Sel.none else s.sel
    let newSel := if d.getLsbD k.drv1 = false then Sel.d1 else if d.getLsbD k.drv0 = false then Sel.d0 else Sel.none
    let oldBs := if rsc then Bs.idle else s.bs
    ∃ t b, exec (.wr1 w) s = .next t ∧
      t.calls = s.calls ++
        (if rsc then resetCalls ++ [.ctlSoftReset] else []) ++
        (match c.getLsbD l.adw, c.getLsbD l.sct with
         | true, true => [.ctlWriteReg (raOf l c) (~~~ d)]
         | true, false =>
           [.drvSetSide .d0 (!d.getLsbD k.side), .drvSetSide .d1 (!d.getLsbD k.side),
            .drvSetMotor .d0 (!d.getLsbD k.mot0), .drvSetMotor .d1 (!d.getLsbD k.mot1)] ++
           (if newSel = oldSel then [] else [.ctlSetFloppy newSel])
         | false, true => [.ctlReadReg (raOf l c) s.nextAnswer]
         | false, false => []) ++
        (if oldBs = .idle ∧ c.getLsbD l.den = true ∧ s.drq = true ∧ c.getLsbD l.ddw = false
         then [.ctlReadData b] else [])

/-- A control write with `RSC` = 1 is the system reset, then `CtlSoftReset()`, then the rest of the same control
write on the reset state, with the written control byte stored whole (R127, R243). -/
def Obligations.ControllerResetThenRest : Prop :=
  ∀ (w : Word) (s : State), s.cfg.layoutIcr.Wf → w.getLsbD (8 + s.cfg.layoutIcr.rsc) = true →
    ∃ r u, exec .reset s = .next r ∧
      exec (.wr1 (withBit w (8 + s.cfg.layoutIcr.rsc) false)) { r with calls := r.calls ++ [.ctlSoftReset] } = .next u ∧
      exec (.wr1 w) s = .next { u with icr := w.extractLsb' 8 8 }

/-- The word `0x1000` leaves the reset state but for `ICR = 0x10` and `OL = {status, 0xFF}`, under the default
layouts (70_reset_and_hazards.md section 1; the bit positions are the spec's decisions D1 and D2). -/
def Obligations.SoleResetWord : Prop :=
  ∀ s : State, s.cfg.layoutIcr = IcrLayout.standard → s.cfg.layoutStatus = StatusLayout.standard →
    exec (.wr1 0x1000#16) s =
      .next
        { State.reset with
          icr := 0x10#8
          ol := BitVec.ofBool s.firq ++ 0#3 ++ BitVec.ofBool s.rdy.d1 ++ 0#2 ++ BitVec.ofBool s.rdy.d0 ++ 0xFF#8
          pend := if s.cfg.fdcIrqInAgg = true ∧ s.firq = true then 0x10#8 else 0x00#8
          drq := s.drq, firq := s.firq, rdy := s.rdy, cfg := s.cfg, inbox := s.inbox
          answers := s.answers, nfree := s.nfree
          calls := s.calls ++ resetCalls ++ [.ctlSoftReset], reports := s.reports, results := s.results }

/-- `RD1` (R130): returns `OL` and changes nothing. -/
def Obligations.ReadIndexOne : Prop :=
  ∀ s : State, exec .rd1 s = .next { s with results := s.results ++ [.word s.ol] }

/-- `RD3` (R131): returns `IDX3_READ_VALUE`, whatever it is, and changes nothing. -/
def Obligations.ReadIndexThree : Prop :=
  ∀ s : State, exec .rd3 s = .next { s with results := s.results ++ [.word s.cfg.idx3ReadValue] }

/-- `WR3 w` (R132) and `IDX_LINE(d, v)` (R144) change nothing. -/
def Obligations.IgnoredOperations : Prop :=
  ∀ s : State, (∀ w, exec (.wr3 w) s = .next s) ∧ ∀ d v, exec (.idxLine d v) s = .next s

/-! ### The status aggregator and the device lines -/

/-- `StatusCompose()` (R140): each of its eight bits is its source, wherever the layout puts it, and under the
default layout the byte is the concatenation of R140. -/
def Obligations.StatusByte : Prop :=
  ∀ s : State,
    (s.cfg.layoutStatus.Wf →
      (statusCompose s).getLsbD s.cfg.layoutStatus.fip = s.firq ∧
      (statusCompose s).getLsbD s.cfg.layoutStatus.dip = s.dip ∧
      (statusCompose s).getLsbD s.cfg.layoutStatus.mc1 = s.mc.d1 ∧
      (statusCompose s).getLsbD s.cfg.layoutStatus.wp1 = s.wps.d1 ∧
      (statusCompose s).getLsbD s.cfg.layoutStatus.rdy1 = s.rdy.d1 ∧
      (statusCompose s).getLsbD s.cfg.layoutStatus.mc0 = s.mc.d0 ∧
      (statusCompose s).getLsbD s.cfg.layoutStatus.wp0 = s.wps.d0 ∧
      (statusCompose s).getLsbD s.cfg.layoutStatus.rdy0 = s.rdy.d0) ∧
    (s.cfg.layoutStatus = StatusLayout.standard →
      statusCompose s =
        BitVec.ofBool s.firq ++ BitVec.ofBool s.dip ++ BitVec.ofBool s.mc.d1 ++ BitVec.ofBool s.wps.d1 ++
        BitVec.ofBool s.rdy.d1 ++ BitVec.ofBool s.mc.d0 ++ BitVec.ofBool s.wps.d0 ++ BitVec.ofBool s.rdy.d0)

/-- `FIRQ_LINE(v)` (R141, R175). -/
def Obligations.InterruptRequestLine : Prop :=
  ∀ (v : Bool) (s : State), ∃ p : Byte, exec (.firqLine v) s = .next { s with firq := v, pend := p } ∧
    ∀ k, p.getLsbD k =
      if k = 4 then (s.dip || s.mci.d0 || s.mci.d1 || (s.cfg.fdcIrqInAgg && v)) else s.pend.getLsbD k

/-- `RDY_LINE(d, v)` (R142): the mirror of that drive, selected or not, and nothing else. -/
def Obligations.ReadyLine : Prop :=
  ∀ (v : Bool) (s : State),
    exec (.rdyLine .d0 v) s = .next { s with rdy := ⟨v, s.rdy.d1⟩ } ∧
    exec (.rdyLine .d1 v) s = .next { s with rdy := ⟨s.rdy.d0, v⟩ }

/-- `WP_LINE(d, v)` (R143): the selected drive's latch is set by a falling line and cleared by a rising one; the
line of a drive that is not selected is not heard. -/
def Obligations.WriteProtectLine : Prop :=
  ∀ (v : Bool) (s : State),
    (s.sel = .d0 → exec (.wpLine .d0 v) s = .next { s with wps := ⟨!v, s.wps.d1⟩ }) ∧
    (s.sel ≠ .d0 → exec (.wpLine .d0 v) s = .next s) ∧
    (s.sel = .d1 → exec (.wpLine .d1 v) s = .next { s with wps := ⟨s.wps.d0, !v⟩ }) ∧
    (s.sel ≠ .d1 → exec (.wpLine .d1 v) s = .next s)

/-- `MCHG(d)` (R145): both latches of the drive are set and `PEND[4]` with them. -/
def Obligations.MediaChangedEvent : Prop :=
  ∀ s : State, ∃ p : Byte, (∀ k, p.getLsbD k = if k = 4 then true else s.pend.getLsbD k) ∧
    exec (.mchg .d0) s = .next { s with mc := ⟨true, s.mc.d1⟩, mci := ⟨true, s.mci.d1⟩, pend := p } ∧
    exec (.mchg .d1) s = .next { s with mc := ⟨s.mc.d0, true⟩, mci := ⟨s.mci.d0, true⟩, pend := p }

/-- A drive-control write with both drives enabled selects drive 1 and makes one diagnostic report, with `RSC` too
(R157, R215). -/
def Obligations.BothDrivesEnabled : Prop :=
  ∀ (m : Mods) (ra : BitVec 2) (d : Byte) (s : State),
    d.getLsbD s.cfg.layoutDcr.drv1 = false → d.getLsbD s.cfg.layoutDcr.drv0 = false →
    ∃ t, exec (.ctlDrvw m ra d) s = .next t ∧ t.sel = .d1 ∧ t.dcr = d ∧ t.reports = s.reports ++ [.dg1 d]

/-! ### The interrupt aggregator -/

/-- `IRQ = 1` if and only if some source is both pending and unmasked (R173). -/
def Obligations.CombinedRequest : Prop :=
  ∀ s : State, s.irq = true ↔ ∃ k, k < 8 ∧ s.mask.getLsbD k = true ∧ s.pend.getLsbD k = true

/-- `SETMASK(i, v)` (R171): one mask bit and nothing else. -/
def Obligations.SetMaskBit : Prop :=
  ∀ (i : BitVec 3) (v : Bool) (s : State), ∃ q : Byte, exec (.setmask i v) s = .next { s with mask := q } ∧
    ∀ k, q.getLsbD k = if k = i.toNat then v else s.mask.getLsbD k

/-- `SETPEND(i, v)` for `i` in {1, 2, 3, 5, 6, 7} (R172): one pending bit and nothing else. -/
def Obligations.SetPendingBit : Prop :=
  ∀ (i : BitVec 3) (v : Bool) (s : State), i ≠ 0#3 → i ≠ 4#3 →
    ∃ p : Byte, exec (.setpend i v) s = .next { s with pend := p } ∧
      ∀ k, p.getLsbD k = if k = i.toNat then v else s.pend.getLsbD k

/-- `SETPEND` of bit 0 or 4 is refused, and nothing else is ever refused or faulted (R176). -/
def Obligations.OnlyOwnedPendingBitsRefused : Prop :=
  ∀ (i : Instr) (s : State),
    (∀ v, i = .setpend 0#3 v → exec i s = .refused (.pendBitOwned 0#3)) ∧
    (∀ v, i = .setpend 4#3 v → exec i s = .refused (.pendBitOwned 4#3)) ∧
    ((¬ ∃ t, exec i s = .next t) → ∃ v, i = .setpend 0#3 v ∨ i = .setpend 4#3 v)

/-- The six external pending bits are written only by `SETPEND` and by reset, and a `SETPEND` that completes leaves
bits 0 and 4 as they were (R176). -/
def Obligations.PendingBitOwnership : Prop :=
  ∀ (i : Instr) (s t : State), exec i s = .next t →
    (∀ k, t.pend.getLsbD k ≠ s.pend.getLsbD k → k ≠ 0 → k ≠ 4 →
      resetsBlock s.cfg.layoutIcr i = true ∨ ∃ j v, i = .setpend j v ∧ j.toNat = k) ∧
    (∀ j v, i = .setpend j v → t.pend.getLsbD 0 = s.pend.getLsbD 0 ∧ t.pend.getLsbD 4 = s.pend.getLsbD 4)

/-- `MASK` is written only by `SETMASK`, at the bit it names, and by reset (R21). -/
def Obligations.MaskOwnership : Prop :=
  ∀ (i : Instr) (s t : State) (k : Nat), exec i s = .next t → t.mask.getLsbD k ≠ s.mask.getLsbD k →
    resetsBlock s.cfg.layoutIcr i = true ∨ ∃ j v, i = .setmask j v ∧ j.toNat = k

/-! ### The keyboard scanner -/

/-- `KTICK(m)` (R191): nothing while an event is held; otherwise the first position that differs, in cursor order
after `KCUR` and once round, is accepted; with no difference nothing changes. -/
def Obligations.TickTakesFirstDifference : Prop :=
  ∀ (m : BitVec 128) (s : State),
    (s.kevt = true → exec (.ktick m) s = .next s) ∧
    (s.kevt = false → (∀ p, p < 128 → m.getLsbD p = s.kprev.getLsbD p) → exec (.ktick m) s = .next s) ∧
    (∀ n, s.kevt = false → 1 ≤ n → n ≤ 128 →
      (∀ j, 1 ≤ j → j < n → m.getLsbD ((s.kcur.toNat + j) % 128) = s.kprev.getLsbD ((s.kcur.toNat + j) % 128)) →
      m.getLsbD ((s.kcur.toNat + n) % 128) ≠ s.kprev.getLsbD ((s.kcur.toNat + n) % 128) →
      ∃ (q : BitVec 128) (p : Byte),
        exec (.ktick m) s =
          .next { s with
                  kcur := BitVec.ofNat 7 (s.kcur.toNat + n), kprev := q
                  kprs := m.getLsbD ((s.kcur.toNat + n) % 128), kevt := true, pend := p } ∧
        (∀ k, q.getLsbD k = if k = (s.kcur.toNat + n) % 128 then !s.kprev.getLsbD k else s.kprev.getLsbD k) ∧
        (∀ k, p.getLsbD k = if k = 0 then true else s.pend.getLsbD k))

/-- `KACK` (R192): returns `(KCUR, KPRS)`, clears `KEVT` and `PEND[0]`, with no condition. -/
def Obligations.Acknowledge : Prop :=
  ∀ s : State, ∃ p : Byte,
    exec .kack s =
      .next { s with kevt := false, pend := p, results := s.results ++ [.key s.kcur s.kprs] } ∧
    ∀ k, p.getLsbD k = if k = 0 then false else s.pend.getLsbD k

/-- A single-bit transition is reported exactly once: the tick holds the event at its position, scanning halts
whatever the matrix does, the acknowledge returns position and level, and the same matrix gives no second event
(45_keyboard_scanner.md section 3). -/
def Obligations.EachTransitionReportedOnce : Prop :=
  ∀ (s : State) (p : BitVec 7) (m : BitVec 128), s.kevt = false →
    (∀ k, k < 128 → (m.getLsbD k ≠ s.kprev.getLsbD k ↔ k = p.toNat)) →
    ∃ t u, exec (.ktick m) s = .next t ∧ t.kevt = true ∧ t.kcur = p ∧ t.kprev = m ∧ t.kprs = m.getLsbD p.toNat ∧
      (∀ m', exec (.ktick m') t = .next t) ∧
      exec .kack t = .next u ∧ u.results = s.results ++ [.key p (m.getLsbD p.toNat)] ∧
      exec (.ktick m) u = .next u

/-- The keyboard state is written only by `KTICK`, `KACK` and reset; the acknowledge writes only `KEVT` of it
(R23, R24, R25, R26, R192). -/
def Obligations.KeyboardOwnership : Prop :=
  ∀ (i : Instr) (s t : State), resetsBlock s.cfg.layoutIcr i = false → exec i s = .next t →
    ((∀ m, i ≠ .ktick m) → t.kprev = s.kprev ∧ t.kcur = s.kcur ∧ t.kprs = s.kprs) ∧
    ((∀ m, i ≠ .ktick m) → i ≠ .kack → t.kevt = s.kevt) ∧
    (t.kevt ≠ s.kevt → (s.kevt = true ∧ i = .kack) ∨ (s.kevt = false ∧ ∃ m, i = .ktick m))

/-! ### Reset -/

/-- `RESET` (R241, R242): every stored element at its reset value, the mirrors kept, the five calls in order, no
report, both outputs 0. -/
def Obligations.SystemReset : Prop :=
  ∀ s : State, ∃ t, exec .reset s = .next t ∧ t.dmar = false ∧ t.irq = false ∧
    t = { s with
          bs := .idle, icr := 0x00#8, dcr := 0xFF#8, ol := 0x0000#16, wl := 0x0000#16, dip := false
          mc := ⟨false, false⟩, mci := ⟨false, false⟩, wps := ⟨false, false⟩, sel := .none, mask := 0x00#8
          pend := if s.cfg.fdcIrqInAgg = true ∧ s.firq = true then 0x10#8 else 0x00#8
          kprev := 0#128, kcur := 0#7, kevt := false, kprs := false
          calls := s.calls ++
            [.drvSetSide .d0 false, .drvSetSide .d1 false, .drvSetMotor .d0 false, .drvSetMotor .d1 false,
             .ctlSetFloppy .none] }

/-- The state after reset is the state `RESET` leaves (R240: "a model's initial state is the state after `RESET`"):
`RESET` from it changes no element and repeats the five calls. The mirrors at 0 and the empty streams are the
model's choice (notes/assumptions/6.md, 7.md). -/
def Obligations.ResetStateIsFixed : Prop :=
  exec .reset State.reset = .next { State.reset with calls := resetCalls } ∧
  State.reset.dmar = false ∧ State.reset.irq = false ∧ State.reset.drq = false ∧ State.reset.firq = false ∧
  State.reset.rdy = ⟨false, false⟩

/-! ### Invariants and whole-machine rules -/

/-- Every step keeps the invariant: the owned pending bits equal their derivations, the selection is the one the
drive-control latch names, a held event is recorded in the accepted key state, the layouts stay layouts
(10_state.md section 3). That a layout gives every field a bit of its own is read from the spec
(notes/assumptions/26.md). -/
def Obligations.StepKeepsInvariant : Prop :=
  ∀ s t : State, s.Inv → step s = .next t → t.Inv

/-- The invariant holds after reset. -/
def Obligations.ResetHasInvariant : Prop := State.reset.Inv

/-- A media-changed latch is set only by `MCHG` of its drive, and cleared only by a drive-control write whose `RMC`
bit of that drive is 1, and by reset (R17). -/
def Obligations.MediaChangedOwnership : Prop :=
  ∀ (i : Instr) (s t : State), exec i s = .next t →
    (s.mc.d0 = false → t.mc.d0 = true → i = .mchg .d0) ∧
    (s.mc.d1 = false → t.mc.d1 = true → i = .mchg .d1) ∧
    (s.mc.d0 = true → t.mc.d0 = false → resetsBlock s.cfg.layoutIcr i = true ∨
      ∃ b, driveByte s.cfg.layoutIcr i = some b ∧ b.getLsbD s.cfg.layoutDcr.rmc0 = true) ∧
    (s.mc.d1 = true → t.mc.d1 = false → resetsBlock s.cfg.layoutIcr i = true ∨
      ∃ b, driveByte s.cfg.layoutIcr i = some b ∧ b.getLsbD s.cfg.layoutDcr.rmc1 = true)

/-- `DIP` is set only by an access of index 2 in turn, and cleared only by a control write with `CLI` and by reset
(R16); the same clears `MCI`, which only `MCHG` sets (R18). -/
def Obligations.InterruptConditionOwnership : Prop :=
  ∀ (i : Instr) (s t : State), exec i s = .next t →
    (s.dip = false → t.dip = true → (s.bs = .wr1 ∧ ∃ w, i = .wr2 w) ∨ (s.bs = .rd2 ∧ i = .rd2)) ∧
    (s.dip = true → t.dip = false →
      resetsBlock s.cfg.layoutIcr i = true ∨ clearsInterrupts s.cfg.layoutIcr i = true) ∧
    (s.mci.d0 = false → t.mci.d0 = true → i = .mchg .d0) ∧
    (s.mci.d1 = false → t.mci.d1 = true → i = .mchg .d1) ∧
    (s.mci.d0 = true → t.mci.d0 = false →
      resetsBlock s.cfg.layoutIcr i = true ∨ clearsInterrupts s.cfg.layoutIcr i = true) ∧
    (s.mci.d1 = true → t.mci.d1 = false →
      resetsBlock s.cfg.layoutIcr i = true ∨ clearsInterrupts s.cfg.layoutIcr i = true)

/-- A write-protect latch changes only by its drive's line while that drive is selected, and by reset (R19). -/
def Obligations.WriteProtectOwnership : Prop :=
  ∀ (i : Instr) (s t : State), resetsBlock s.cfg.layoutIcr i = false → exec i s = .next t →
    (t.wps.d0 ≠ s.wps.d0 → s.sel = .d0 ∧ i = .wpLine .d0 s.wps.d0) ∧
    (t.wps.d1 ≠ s.wps.d1 → s.sel = .d1 ∧ i = .wpLine .d1 s.wps.d1)

/-- The mirrors are written by their line operations and by nothing else, reset included (R27, R28, R29). -/
def Obligations.MirrorOwnership : Prop :=
  ∀ (i : Instr) (s t : State), exec i s = .next t →
    (t.drq ≠ s.drq → i = .drqLine t.drq) ∧ (t.firq ≠ s.firq → i = .firqLine t.firq) ∧
    (t.rdy.d0 ≠ s.rdy.d0 → i = .rdyLine .d0 t.rdy.d0) ∧ (t.rdy.d1 ≠ s.rdy.d1 → i = .rdyLine .d1 t.rdy.d1)

/-- Making a report changes no state element, no output and no later behaviour: an operation does the same whatever
reports were made before (R210). -/
def Obligations.ReportsDoNotSteer : Prop :=
  ∀ (i : Instr) (s t : State), exec i s = .next t →
    ∃ new, t.reports = s.reports ++ new ∧
      ∀ old, exec i { s with reports := old } = .next { t with reports := old ++ new }

/-- An operation makes at most one report; a control write makes no anomaly report (60_exceptions.md section 2). -/
def Obligations.AtMostOneReport : Prop :=
  ∀ (i : Instr) (s t : State), exec i s = .next t →
    ∃ new, t.reports = s.reports ++ new ∧ new.length ≤ 1 ∧
      (isControlWrite s.cfg.layoutIcr i = true → ∀ r ∈ new, isAnomaly r = false)

/-- `WL[15:8]` is never read: two states that differ only there do the same, and differ afterwards at most there
(R15). -/
def Obligations.WriteLatchHighByteUnread : Prop :=
  ∀ (i : Instr) (s t : State) (b : Byte), exec i s = .next t →
    ∃ c : Byte, exec i { s with wl := b ++ s.wl.extractLsb' 0 8 } =
      .next { t with wl := c ++ t.wl.extractLsb' 0 8 }

/-- The stored bits of `ICR` other than `DEN` and `DDW` have no later effect: two states that agree on those two do
the same (R12). -/
def Obligations.StoredControlBitsHaveNoEffect : Prop :=
  ∀ (i : Instr) (s t : State) (c : Byte),
    c.getLsbD s.cfg.layoutIcr.den = s.icr.getLsbD s.cfg.layoutIcr.den →
    c.getLsbD s.cfg.layoutIcr.ddw = s.icr.getLsbD s.cfg.layoutIcr.ddw → exec i s = .next t →
    ∃ c' : Byte, exec i { s with icr := c } = .next { t with icr := c' } ∧
      c'.getLsbD s.cfg.layoutIcr.den = t.icr.getLsbD s.cfg.layoutIcr.den ∧
      c'.getLsbD s.cfg.layoutIcr.ddw = t.icr.getLsbD s.cfg.layoutIcr.ddw

/-- The output streams only grow, and no operation touches the parameters or the operations still to come (the
model's own fields, notes/assumptions/1.md, 7.md, 8.md). -/
def Obligations.OutputStreamsOnlyGrow : Prop :=
  ∀ (i : Instr) (s t : State), exec i s = .next t →
    t.cfg = s.cfg ∧ t.inbox = s.inbox ∧ (∃ a, t.calls = s.calls ++ a) ∧ (∃ a, t.reports = s.reports ++ a) ∧
    ∃ a, t.results = s.results ++ a
end

