-- ==== Sys2Proof/Laws/Bits.lean ====
section
/-! SUPPORT. Lemmas of the bit, half and field helpers of Machine/Operands.lean. -/

namespace Sys2Proof.Machine

theorem getLsbD_withBit {n : Nat} (x : BitVec n) (i j : Nat) (v : Bool) :
    (withBit x i v).getLsbD j = if j = i ∧ i < n then v else x.getLsbD j := by
  unfold withBit
  by_cases hi : i < n
  · by_cases hj : j = i
    · subst hj; cases v <;> simp [hi]
    · have : j < i ∨ i < j := by omega
      cases v <;> simp only [hj, false_and, if_false, if_true, Bool.false_eq_true]
      all_goals
        by_cases hjn : j < n
        · rcases this with h | h
          · simp [h, hjn]
          · have : ¬ j < i := by omega
            have h3 : j - i ≠ 0 := by omega
            simp [this, h3, hjn]
        · have := BitVec.getLsbD_of_ge x j (by omega)
          simp [hjn, this]
  · have hz : (1#n <<< i) = 0#n := BitVec.shiftLeft_eq_zero (by omega)
    cases v <;> simp [hi, hz]

@[simp] theorem withBit_self {n : Nat} (x : BitVec n) (i : Nat) :
    withBit x i (x.getLsbD i) = x := by
  apply BitVec.eq_of_getLsbD_eq; intro j hj
  rw [getLsbD_withBit]; split
  · rename_i h; rw [h.1]
  · rfl

@[simp] theorem hiByte_wordOf (h l : Byte) : hiByte (wordOf h l) = h := by
  apply BitVec.eq_of_getLsbD_eq; intro j hj
  simp only [hiByte, wordOf, BitVec.getLsbD_extractLsb', BitVec.getLsbD_append]
  simp [hj]

@[simp] theorem loByte_wordOf (h l : Byte) : loByte (wordOf h l) = l := by
  apply BitVec.eq_of_getLsbD_eq; intro j hj
  simp only [loByte, wordOf, BitVec.getLsbD_extractLsb', BitVec.getLsbD_append]
  simp [hj]

@[simp] theorem wordOf_hi_lo (w : Word) : wordOf (hiByte w) (loByte w) = w := by
  apply BitVec.eq_of_getLsbD_eq; intro j hj
  simp only [hiByte, loByte, wordOf, BitVec.getLsbD_append, BitVec.getLsbD_extractLsb']
  split
  · simp [*]
  · rw [decide_eq_true (by omega)]; simp; congr 1; omega

@[simp] theorem hiByte_withHi (w : Word) (b : Byte) : hiByte (withHi w b) = b := hiByte_wordOf _ _
@[simp] theorem loByte_withHi (w : Word) (b : Byte) : loByte (withHi w b) = loByte w := loByte_wordOf _ _
@[simp] theorem hiByte_withLo (w : Word) (b : Byte) : hiByte (withLo w b) = hiByte w := hiByte_wordOf _ _
@[simp] theorem loByte_withLo (w : Word) (b : Byte) : loByte (withLo w b) = b := loByte_wordOf _ _

/-! ### Fields of a control byte under a layout that gives each a position of its own -/

theorem bitAt_withBit (b : Byte) (p q : Fin 8) (v : Bool) :
    bitAt (withBit b p v) q = if q = p then v else bitAt b q := by
  have := p.isLt
  simp only [bitAt, getLsbD_withBit, this, and_true, Fin.ext_iff]

/-- The inequalities a well-formed layout gives. -/
theorem IcrLayout_ne {l : IcrLayout} (h : l.Wf) :
    (l.cli ≠ l.ddw ∧ l.cli ≠ l.den ∧ l.cli ≠ l.rsc ∧ l.cli ≠ l.adw ∧ l.cli ≠ l.sct ∧ l.cli ≠ l.ra1 ∧
      l.cli ≠ l.ra0) ∧
    (l.ddw ≠ l.den ∧ l.ddw ≠ l.rsc ∧ l.ddw ≠ l.adw ∧ l.ddw ≠ l.sct ∧ l.ddw ≠ l.ra1 ∧ l.ddw ≠ l.ra0) ∧
    (l.den ≠ l.rsc ∧ l.den ≠ l.adw ∧ l.den ≠ l.sct ∧ l.den ≠ l.ra1 ∧ l.den ≠ l.ra0) ∧
    (l.rsc ≠ l.adw ∧ l.rsc ≠ l.sct ∧ l.rsc ≠ l.ra1 ∧ l.rsc ≠ l.ra0) ∧
    (l.adw ≠ l.sct ∧ l.adw ≠ l.ra1 ∧ l.adw ≠ l.ra0) ∧ (l.sct ≠ l.ra1 ∧ l.sct ≠ l.ra0) ∧
    l.ra1 ≠ l.ra0 := by
  simpa [IcrLayout.Wf, IcrLayout.positions, and_assoc] using h

theorem modsOf_ctlByte {l : IcrLayout} (h : l.Wf) (m : Mods) (adw sct : Bool) (ra : BitVec 2) :
    modsOf l (ctlByte l m adw sct ra) = m := by
  obtain ⟨h1, h2, h3, h4, h5, h6, h7⟩ := IcrLayout_ne h
  simp [modsOf, ctlByte, bitAt_withBit, h1, h2, h3, h4]

theorem adw_ctlByte {l : IcrLayout} (h : l.Wf) (m : Mods) (adw sct : Bool) (ra : BitVec 2) :
    bitAt (ctlByte l m adw sct ra) l.adw = adw := by
  obtain ⟨h1, h2, h3, h4, h5, h6, h7⟩ := IcrLayout_ne h
  simp [ctlByte, bitAt_withBit, h5]

theorem sct_ctlByte {l : IcrLayout} (h : l.Wf) (m : Mods) (adw sct : Bool) (ra : BitVec 2) :
    bitAt (ctlByte l m adw sct ra) l.sct = sct := by
  obtain ⟨h1, h2, h3, h4, h5, h6, h7⟩ := IcrLayout_ne h
  simp [ctlByte, bitAt_withBit, h6]

theorem raBits_eq (x : BitVec 2) :
    (BitVec.ofBool (x.getLsbD 1) ++ BitVec.ofBool (x.getLsbD 0) : BitVec 2) = x := by
  revert x; decide

theorem raBits_one (a b : Bool) : (BitVec.ofBool a ++ BitVec.ofBool b : BitVec 2).getLsbD 1 = a := by
  revert a b; decide

theorem raBits_zero (a b : Bool) : (BitVec.ofBool a ++ BitVec.ofBool b : BitVec 2).getLsbD 0 = b := by
  revert a b; decide

theorem raOf_ctlByte {l : IcrLayout} (h : l.Wf) (m : Mods) (adw sct : Bool) (ra : BitVec 2) :
    raOf l (ctlByte l m adw sct ra) = ra := by
  obtain ⟨h1, h2, h3, h4, h5, h6, h7⟩ := IcrLayout_ne h
  simp only [raOf, ctlByte, bitAt_withBit, h7, if_true, if_false]
  exact raBits_eq ra

/-- Eight different positions are all eight. -/
theorem mem_of_nodup_eight (ps : List (Fin 8)) (hl : ps.length = 8) (h : ps.Nodup) (p : Fin 8) : p ∈ ps := by
  have hc : ps.toFinset.card = 8 := by rw [List.toFinset_card_of_nodup h, hl]
  have : ps.toFinset = Finset.univ := Finset.eq_univ_of_card _ (by simpa using hc)
  have hm : p ∈ ps.toFinset := by rw [this]; exact Finset.mem_univ p
  simpa using hm

/-- A control byte is its fields put back together. -/
theorem ctlByte_fields {l : IcrLayout} (h : l.Wf) (c : Byte) :
    ctlByte l (modsOf l c) (bitAt c l.adw) (bitAt c l.sct) (raOf l c) = c := by
  have hra1 : (raOf l c).getLsbD 1 = bitAt c l.ra1 := raBits_one _ _
  have hra0 : (raOf l c).getLsbD 0 = bitAt c l.ra0 := raBits_zero _ _
  apply BitVec.eq_of_getLsbD_eq; intro j hj
  have hmem := mem_of_nodup_eight l.positions rfl h ⟨j, hj⟩
  change bitAt _ ⟨j, hj⟩ = bitAt c ⟨j, hj⟩
  obtain ⟨h1, h2, h3, h4, h5, h6, h7⟩ := IcrLayout_ne h
  simp only [IcrLayout.positions, List.mem_cons, List.not_mem_nil, or_false] at hmem
  rcases hmem with e | e | e | e | e | e | e | e <;> rw [e] <;>
    simp only [ctlByte, bitAt_withBit, modsOf, hra1, hra0, h1, h2, h3, h4, h5, h6, h7,
      if_true, if_false]

/-! ### The matrix sample -/

theorem matrixOf_bytes (m : BitVec 128) :
    matrixOf (groupOf (matrixByte m 0) (matrixByte m 1) (matrixByte m 2) (matrixByte m 3))
      (groupOf (matrixByte m 4) (matrixByte m 5) (matrixByte m 6) (matrixByte m 7))
      (groupOf (matrixByte m 8) (matrixByte m 9) (matrixByte m 10) (matrixByte m 11))
      (groupOf (matrixByte m 12) (matrixByte m 13) (matrixByte m 14) (matrixByte m 15)) = m := by
  apply BitVec.eq_of_getLsbD_eq; intro j hj
  simp only [matrixOf, groupOf, matrixByte, BitVec.getLsbD_append, BitVec.getLsbD_extractLsb']
  split_ifs <;> (rw [decide_eq_true (by omega), Bool.true_and]; exact congrArg m.getLsbD (by omega))

end Sys2Proof.Machine
end

