-- ==== Sys2Proof/Laws/State.lean ====
section
/-! SUPPORT. One lemma per field per basic update of the state, so that no proof unfolds an update. -/

namespace Sys2Proof.Machine

/-! ### call -/

@[simp] theorem call_bs (s : State) (c : Call) : (s.call c).bs = s.bs := rfl
@[simp] theorem call_icr (s : State) (c : Call) : (s.call c).icr = s.icr := rfl
@[simp] theorem call_dcr (s : State) (c : Call) : (s.call c).dcr = s.dcr := rfl
@[simp] theorem call_ol (s : State) (c : Call) : (s.call c).ol = s.ol := rfl
@[simp] theorem call_wl (s : State) (c : Call) : (s.call c).wl = s.wl := rfl
@[simp] theorem call_dip (s : State) (c : Call) : (s.call c).dip = s.dip := rfl
@[simp] theorem call_mc (s : State) (c : Call) : (s.call c).mc = s.mc := rfl
@[simp] theorem call_mci (s : State) (c : Call) : (s.call c).mci = s.mci := rfl
@[simp] theorem call_wps (s : State) (c : Call) : (s.call c).wps = s.wps := rfl
@[simp] theorem call_sel (s : State) (c : Call) : (s.call c).sel = s.sel := rfl
@[simp] theorem call_mask (s : State) (c : Call) : (s.call c).mask = s.mask := rfl
@[simp] theorem call_pend (s : State) (c : Call) : (s.call c).pend = s.pend := rfl
@[simp] theorem call_kprev (s : State) (c : Call) : (s.call c).kprev = s.kprev := rfl
@[simp] theorem call_kcur (s : State) (c : Call) : (s.call c).kcur = s.kcur := rfl
@[simp] theorem call_kevt (s : State) (c : Call) : (s.call c).kevt = s.kevt := rfl
@[simp] theorem call_kprs (s : State) (c : Call) : (s.call c).kprs = s.kprs := rfl
@[simp] theorem call_drq (s : State) (c : Call) : (s.call c).drq = s.drq := rfl
@[simp] theorem call_firq (s : State) (c : Call) : (s.call c).firq = s.firq := rfl
@[simp] theorem call_rdy (s : State) (c : Call) : (s.call c).rdy = s.rdy := rfl
@[simp] theorem call_cfg (s : State) (c : Call) : (s.call c).cfg = s.cfg := rfl
@[simp] theorem call_inbox (s : State) (c : Call) : (s.call c).inbox = s.inbox := rfl
@[simp] theorem call_answers (s : State) (c : Call) : (s.call c).answers = s.answers := rfl
@[simp] theorem call_nfree (s : State) (c : Call) : (s.call c).nfree = s.nfree := rfl
@[simp] theorem call_calls (s : State) (c : Call) : (s.call c).calls = s.calls ++ [c] := rfl
@[simp] theorem call_reports (s : State) (c : Call) : (s.call c).reports = s.reports := rfl
@[simp] theorem call_results (s : State) (c : Call) : (s.call c).results = s.results := rfl

/-! ### report -/

@[simp] theorem report_bs (s : State) (r : Report) : (s.report r).bs = s.bs := rfl
@[simp] theorem report_icr (s : State) (r : Report) : (s.report r).icr = s.icr := rfl
@[simp] theorem report_dcr (s : State) (r : Report) : (s.report r).dcr = s.dcr := rfl
@[simp] theorem report_ol (s : State) (r : Report) : (s.report r).ol = s.ol := rfl
@[simp] theorem report_wl (s : State) (r : Report) : (s.report r).wl = s.wl := rfl
@[simp] theorem report_dip (s : State) (r : Report) : (s.report r).dip = s.dip := rfl
@[simp] theorem report_mc (s : State) (r : Report) : (s.report r).mc = s.mc := rfl
@[simp] theorem report_mci (s : State) (r : Report) : (s.report r).mci = s.mci := rfl
@[simp] theorem report_wps (s : State) (r : Report) : (s.report r).wps = s.wps := rfl
@[simp] theorem report_sel (s : State) (r : Report) : (s.report r).sel = s.sel := rfl
@[simp] theorem report_mask (s : State) (r : Report) : (s.report r).mask = s.mask := rfl
@[simp] theorem report_pend (s : State) (r : Report) : (s.report r).pend = s.pend := rfl
@[simp] theorem report_kprev (s : State) (r : Report) : (s.report r).kprev = s.kprev := rfl
@[simp] theorem report_kcur (s : State) (r : Report) : (s.report r).kcur = s.kcur := rfl
@[simp] theorem report_kevt (s : State) (r : Report) : (s.report r).kevt = s.kevt := rfl
@[simp] theorem report_kprs (s : State) (r : Report) : (s.report r).kprs = s.kprs := rfl
@[simp] theorem report_drq (s : State) (r : Report) : (s.report r).drq = s.drq := rfl
@[simp] theorem report_firq (s : State) (r : Report) : (s.report r).firq = s.firq := rfl
@[simp] theorem report_rdy (s : State) (r : Report) : (s.report r).rdy = s.rdy := rfl
@[simp] theorem report_cfg (s : State) (r : Report) : (s.report r).cfg = s.cfg := rfl
@[simp] theorem report_inbox (s : State) (r : Report) : (s.report r).inbox = s.inbox := rfl
@[simp] theorem report_answers (s : State) (r : Report) : (s.report r).answers = s.answers := rfl
@[simp] theorem report_nfree (s : State) (r : Report) : (s.report r).nfree = s.nfree := rfl
@[simp] theorem report_calls (s : State) (r : Report) : (s.report r).calls = s.calls := rfl
@[simp] theorem report_reports (s : State) (r : Report) : (s.report r).reports = s.reports ++ [r] := rfl
@[simp] theorem report_results (s : State) (r : Report) : (s.report r).results = s.results := rfl

/-! ### give -/

@[simp] theorem give_bs (s : State) (r : Result) : (s.give r).bs = s.bs := rfl
@[simp] theorem give_icr (s : State) (r : Result) : (s.give r).icr = s.icr := rfl
@[simp] theorem give_dcr (s : State) (r : Result) : (s.give r).dcr = s.dcr := rfl
@[simp] theorem give_ol (s : State) (r : Result) : (s.give r).ol = s.ol := rfl
@[simp] theorem give_wl (s : State) (r : Result) : (s.give r).wl = s.wl := rfl
@[simp] theorem give_dip (s : State) (r : Result) : (s.give r).dip = s.dip := rfl
@[simp] theorem give_mc (s : State) (r : Result) : (s.give r).mc = s.mc := rfl
@[simp] theorem give_mci (s : State) (r : Result) : (s.give r).mci = s.mci := rfl
@[simp] theorem give_wps (s : State) (r : Result) : (s.give r).wps = s.wps := rfl
@[simp] theorem give_sel (s : State) (r : Result) : (s.give r).sel = s.sel := rfl
@[simp] theorem give_mask (s : State) (r : Result) : (s.give r).mask = s.mask := rfl
@[simp] theorem give_pend (s : State) (r : Result) : (s.give r).pend = s.pend := rfl
@[simp] theorem give_kprev (s : State) (r : Result) : (s.give r).kprev = s.kprev := rfl
@[simp] theorem give_kcur (s : State) (r : Result) : (s.give r).kcur = s.kcur := rfl
@[simp] theorem give_kevt (s : State) (r : Result) : (s.give r).kevt = s.kevt := rfl
@[simp] theorem give_kprs (s : State) (r : Result) : (s.give r).kprs = s.kprs := rfl
@[simp] theorem give_drq (s : State) (r : Result) : (s.give r).drq = s.drq := rfl
@[simp] theorem give_firq (s : State) (r : Result) : (s.give r).firq = s.firq := rfl
@[simp] theorem give_rdy (s : State) (r : Result) : (s.give r).rdy = s.rdy := rfl
@[simp] theorem give_cfg (s : State) (r : Result) : (s.give r).cfg = s.cfg := rfl
@[simp] theorem give_inbox (s : State) (r : Result) : (s.give r).inbox = s.inbox := rfl
@[simp] theorem give_answers (s : State) (r : Result) : (s.give r).answers = s.answers := rfl
@[simp] theorem give_nfree (s : State) (r : Result) : (s.give r).nfree = s.nfree := rfl
@[simp] theorem give_calls (s : State) (r : Result) : (s.give r).calls = s.calls := rfl
@[simp] theorem give_reports (s : State) (r : Result) : (s.give r).reports = s.reports := rfl
@[simp] theorem give_results (s : State) (r : Result) : (s.give r).results = s.results ++ [r] := rfl

/-! ### setOlHi -/

@[simp] theorem setOlHi_bs (s : State) (b : Byte) : (s.setOlHi b).bs = s.bs := rfl
@[simp] theorem setOlHi_icr (s : State) (b : Byte) : (s.setOlHi b).icr = s.icr := rfl
@[simp] theorem setOlHi_dcr (s : State) (b : Byte) : (s.setOlHi b).dcr = s.dcr := rfl
@[simp] theorem setOlHi_ol (s : State) (b : Byte) : (s.setOlHi b).ol = withHi s.ol b := rfl
@[simp] theorem setOlHi_wl (s : State) (b : Byte) : (s.setOlHi b).wl = s.wl := rfl
@[simp] theorem setOlHi_dip (s : State) (b : Byte) : (s.setOlHi b).dip = s.dip := rfl
@[simp] theorem setOlHi_mc (s : State) (b : Byte) : (s.setOlHi b).mc = s.mc := rfl
@[simp] theorem setOlHi_mci (s : State) (b : Byte) : (s.setOlHi b).mci = s.mci := rfl
@[simp] theorem setOlHi_wps (s : State) (b : Byte) : (s.setOlHi b).wps = s.wps := rfl
@[simp] theorem setOlHi_sel (s : State) (b : Byte) : (s.setOlHi b).sel = s.sel := rfl
@[simp] theorem setOlHi_mask (s : State) (b : Byte) : (s.setOlHi b).mask = s.mask := rfl
@[simp] theorem setOlHi_pend (s : State) (b : Byte) : (s.setOlHi b).pend = s.pend := rfl
@[simp] theorem setOlHi_kprev (s : State) (b : Byte) : (s.setOlHi b).kprev = s.kprev := rfl
@[simp] theorem setOlHi_kcur (s : State) (b : Byte) : (s.setOlHi b).kcur = s.kcur := rfl
@[simp] theorem setOlHi_kevt (s : State) (b : Byte) : (s.setOlHi b).kevt = s.kevt := rfl
@[simp] theorem setOlHi_kprs (s : State) (b : Byte) : (s.setOlHi b).kprs = s.kprs := rfl
@[simp] theorem setOlHi_drq (s : State) (b : Byte) : (s.setOlHi b).drq = s.drq := rfl
@[simp] theorem setOlHi_firq (s : State) (b : Byte) : (s.setOlHi b).firq = s.firq := rfl
@[simp] theorem setOlHi_rdy (s : State) (b : Byte) : (s.setOlHi b).rdy = s.rdy := rfl
@[simp] theorem setOlHi_cfg (s : State) (b : Byte) : (s.setOlHi b).cfg = s.cfg := rfl
@[simp] theorem setOlHi_inbox (s : State) (b : Byte) : (s.setOlHi b).inbox = s.inbox := rfl
@[simp] theorem setOlHi_answers (s : State) (b : Byte) : (s.setOlHi b).answers = s.answers := rfl
@[simp] theorem setOlHi_nfree (s : State) (b : Byte) : (s.setOlHi b).nfree = s.nfree := rfl
@[simp] theorem setOlHi_calls (s : State) (b : Byte) : (s.setOlHi b).calls = s.calls := rfl
@[simp] theorem setOlHi_reports (s : State) (b : Byte) : (s.setOlHi b).reports = s.reports := rfl
@[simp] theorem setOlHi_results (s : State) (b : Byte) : (s.setOlHi b).results = s.results := rfl

/-! ### setOlLo -/

@[simp] theorem setOlLo_bs (s : State) (b : Byte) : (s.setOlLo b).bs = s.bs := rfl
@[simp] theorem setOlLo_icr (s : State) (b : Byte) : (s.setOlLo b).icr = s.icr := rfl
@[simp] theorem setOlLo_dcr (s : State) (b : Byte) : (s.setOlLo b).dcr = s.dcr := rfl
@[simp] theorem setOlLo_ol (s : State) (b : Byte) : (s.setOlLo b).ol = withLo s.ol b := rfl
@[simp] theorem setOlLo_wl (s : State) (b : Byte) : (s.setOlLo b).wl = s.wl := rfl
@[simp] theorem setOlLo_dip (s : State) (b : Byte) : (s.setOlLo b).dip = s.dip := rfl
@[simp] theorem setOlLo_mc (s : State) (b : Byte) : (s.setOlLo b).mc = s.mc := rfl
@[simp] theorem setOlLo_mci (s : State) (b : Byte) : (s.setOlLo b).mci = s.mci := rfl
@[simp] theorem setOlLo_wps (s : State) (b : Byte) : (s.setOlLo b).wps = s.wps := rfl
@[simp] theorem setOlLo_sel (s : State) (b : Byte) : (s.setOlLo b).sel = s.sel := rfl
@[simp] theorem setOlLo_mask (s : State) (b : Byte) : (s.setOlLo b).mask = s.mask := rfl
@[simp] theorem setOlLo_pend (s : State) (b : Byte) : (s.setOlLo b).pend = s.pend := rfl
@[simp] theorem setOlLo_kprev (s : State) (b : Byte) : (s.setOlLo b).kprev = s.kprev := rfl
@[simp] theorem setOlLo_kcur (s : State) (b : Byte) : (s.setOlLo b).kcur = s.kcur := rfl
@[simp] theorem setOlLo_kevt (s : State) (b : Byte) : (s.setOlLo b).kevt = s.kevt := rfl
@[simp] theorem setOlLo_kprs (s : State) (b : Byte) : (s.setOlLo b).kprs = s.kprs := rfl
@[simp] theorem setOlLo_drq (s : State) (b : Byte) : (s.setOlLo b).drq = s.drq := rfl
@[simp] theorem setOlLo_firq (s : State) (b : Byte) : (s.setOlLo b).firq = s.firq := rfl
@[simp] theorem setOlLo_rdy (s : State) (b : Byte) : (s.setOlLo b).rdy = s.rdy := rfl
@[simp] theorem setOlLo_cfg (s : State) (b : Byte) : (s.setOlLo b).cfg = s.cfg := rfl
@[simp] theorem setOlLo_inbox (s : State) (b : Byte) : (s.setOlLo b).inbox = s.inbox := rfl
@[simp] theorem setOlLo_answers (s : State) (b : Byte) : (s.setOlLo b).answers = s.answers := rfl
@[simp] theorem setOlLo_nfree (s : State) (b : Byte) : (s.setOlLo b).nfree = s.nfree := rfl
@[simp] theorem setOlLo_calls (s : State) (b : Byte) : (s.setOlLo b).calls = s.calls := rfl
@[simp] theorem setOlLo_reports (s : State) (b : Byte) : (s.setOlLo b).reports = s.reports := rfl
@[simp] theorem setOlLo_results (s : State) (b : Byte) : (s.setOlLo b).results = s.results := rfl

/-! ### floppyIrqUpdate -/

@[simp] theorem floppyIrqUpdate_bs (s : State) : (floppyIrqUpdate s).bs = s.bs := rfl
@[simp] theorem floppyIrqUpdate_icr (s : State) : (floppyIrqUpdate s).icr = s.icr := rfl
@[simp] theorem floppyIrqUpdate_dcr (s : State) : (floppyIrqUpdate s).dcr = s.dcr := rfl
@[simp] theorem floppyIrqUpdate_ol (s : State) : (floppyIrqUpdate s).ol = s.ol := rfl
@[simp] theorem floppyIrqUpdate_wl (s : State) : (floppyIrqUpdate s).wl = s.wl := rfl
@[simp] theorem floppyIrqUpdate_dip (s : State) : (floppyIrqUpdate s).dip = s.dip := rfl
@[simp] theorem floppyIrqUpdate_mc (s : State) : (floppyIrqUpdate s).mc = s.mc := rfl
@[simp] theorem floppyIrqUpdate_mci (s : State) : (floppyIrqUpdate s).mci = s.mci := rfl
@[simp] theorem floppyIrqUpdate_wps (s : State) : (floppyIrqUpdate s).wps = s.wps := rfl
@[simp] theorem floppyIrqUpdate_sel (s : State) : (floppyIrqUpdate s).sel = s.sel := rfl
@[simp] theorem floppyIrqUpdate_mask (s : State) : (floppyIrqUpdate s).mask = s.mask := rfl
@[simp] theorem floppyIrqUpdate_pend (s : State) : (floppyIrqUpdate s).pend = withBit s.pend 4 (floppyCondition s) := rfl
@[simp] theorem floppyIrqUpdate_kprev (s : State) : (floppyIrqUpdate s).kprev = s.kprev := rfl
@[simp] theorem floppyIrqUpdate_kcur (s : State) : (floppyIrqUpdate s).kcur = s.kcur := rfl
@[simp] theorem floppyIrqUpdate_kevt (s : State) : (floppyIrqUpdate s).kevt = s.kevt := rfl
@[simp] theorem floppyIrqUpdate_kprs (s : State) : (floppyIrqUpdate s).kprs = s.kprs := rfl
@[simp] theorem floppyIrqUpdate_drq (s : State) : (floppyIrqUpdate s).drq = s.drq := rfl
@[simp] theorem floppyIrqUpdate_firq (s : State) : (floppyIrqUpdate s).firq = s.firq := rfl
@[simp] theorem floppyIrqUpdate_rdy (s : State) : (floppyIrqUpdate s).rdy = s.rdy := rfl
@[simp] theorem floppyIrqUpdate_cfg (s : State) : (floppyIrqUpdate s).cfg = s.cfg := rfl
@[simp] theorem floppyIrqUpdate_inbox (s : State) : (floppyIrqUpdate s).inbox = s.inbox := rfl
@[simp] theorem floppyIrqUpdate_answers (s : State) : (floppyIrqUpdate s).answers = s.answers := rfl
@[simp] theorem floppyIrqUpdate_nfree (s : State) : (floppyIrqUpdate s).nfree = s.nfree := rfl
@[simp] theorem floppyIrqUpdate_calls (s : State) : (floppyIrqUpdate s).calls = s.calls := rfl
@[simp] theorem floppyIrqUpdate_reports (s : State) : (floppyIrqUpdate s).reports = s.reports := rfl
@[simp] theorem floppyIrqUpdate_results (s : State) : (floppyIrqUpdate s).results = s.results := rfl

/-! ### clearInterrupts -/

@[simp] theorem clearInterrupts_bs (s : State) : (clearInterrupts s).bs = s.bs := rfl
@[simp] theorem clearInterrupts_icr (s : State) : (clearInterrupts s).icr = s.icr := rfl
@[simp] theorem clearInterrupts_dcr (s : State) : (clearInterrupts s).dcr = s.dcr := rfl
@[simp] theorem clearInterrupts_ol (s : State) : (clearInterrupts s).ol = s.ol := rfl
@[simp] theorem clearInterrupts_wl (s : State) : (clearInterrupts s).wl = s.wl := rfl
@[simp] theorem clearInterrupts_dip (s : State) : (clearInterrupts s).dip = false := rfl
@[simp] theorem clearInterrupts_mc (s : State) : (clearInterrupts s).mc = s.mc := rfl
@[simp] theorem clearInterrupts_mci (s : State) : (clearInterrupts s).mci = ⟨false, false⟩ := rfl
@[simp] theorem clearInterrupts_wps (s : State) : (clearInterrupts s).wps = s.wps := rfl
@[simp] theorem clearInterrupts_sel (s : State) : (clearInterrupts s).sel = s.sel := rfl
@[simp] theorem clearInterrupts_mask (s : State) : (clearInterrupts s).mask = s.mask := rfl
@[simp] theorem clearInterrupts_pend (s : State) : (clearInterrupts s).pend = s.pend := rfl
@[simp] theorem clearInterrupts_kprev (s : State) : (clearInterrupts s).kprev = s.kprev := rfl
@[simp] theorem clearInterrupts_kcur (s : State) : (clearInterrupts s).kcur = s.kcur := rfl
@[simp] theorem clearInterrupts_kevt (s : State) : (clearInterrupts s).kevt = s.kevt := rfl
@[simp] theorem clearInterrupts_kprs (s : State) : (clearInterrupts s).kprs = s.kprs := rfl
@[simp] theorem clearInterrupts_drq (s : State) : (clearInterrupts s).drq = s.drq := rfl
@[simp] theorem clearInterrupts_firq (s : State) : (clearInterrupts s).firq = s.firq := rfl
@[simp] theorem clearInterrupts_rdy (s : State) : (clearInterrupts s).rdy = s.rdy := rfl
@[simp] theorem clearInterrupts_cfg (s : State) : (clearInterrupts s).cfg = s.cfg := rfl
@[simp] theorem clearInterrupts_inbox (s : State) : (clearInterrupts s).inbox = s.inbox := rfl
@[simp] theorem clearInterrupts_answers (s : State) : (clearInterrupts s).answers = s.answers := rfl
@[simp] theorem clearInterrupts_nfree (s : State) : (clearInterrupts s).nfree = s.nfree := rfl
@[simp] theorem clearInterrupts_calls (s : State) : (clearInterrupts s).calls = s.calls := rfl
@[simp] theorem clearInterrupts_reports (s : State) : (clearInterrupts s).reports = s.reports := rfl
@[simp] theorem clearInterrupts_results (s : State) : (clearInterrupts s).results = s.results := rfl

/-! ### dropAnswer -/

@[simp] theorem dropAnswer_bs (s : State) : s.dropAnswer.bs = s.bs := by
  unfold State.dropAnswer; split <;> rfl
@[simp] theorem dropAnswer_icr (s : State) : s.dropAnswer.icr = s.icr := by
  unfold State.dropAnswer; split <;> rfl
@[simp] theorem dropAnswer_dcr (s : State) : s.dropAnswer.dcr = s.dcr := by
  unfold State.dropAnswer; split <;> rfl
@[simp] theorem dropAnswer_ol (s : State) : s.dropAnswer.ol = s.ol := by
  unfold State.dropAnswer; split <;> rfl
@[simp] theorem dropAnswer_wl (s : State) : s.dropAnswer.wl = s.wl := by
  unfold State.dropAnswer; split <;> rfl
@[simp] theorem dropAnswer_dip (s : State) : s.dropAnswer.dip = s.dip := by
  unfold State.dropAnswer; split <;> rfl
@[simp] theorem dropAnswer_mc (s : State) : s.dropAnswer.mc = s.mc := by
  unfold State.dropAnswer; split <;> rfl
@[simp] theorem dropAnswer_mci (s : State) : s.dropAnswer.mci = s.mci := by
  unfold State.dropAnswer; split <;> rfl
@[simp] theorem dropAnswer_wps (s : State) : s.dropAnswer.wps = s.wps := by
  unfold State.dropAnswer; split <;> rfl
@[simp] theorem dropAnswer_sel (s : State) : s.dropAnswer.sel = s.sel := by
  unfold State.dropAnswer; split <;> rfl
@[simp] theorem dropAnswer_mask (s : State) : s.dropAnswer.mask = s.mask := by
  unfold State.dropAnswer; split <;> rfl
@[simp] theorem dropAnswer_pend (s : State) : s.dropAnswer.pend = s.pend := by
  unfold State.dropAnswer; split <;> rfl
@[simp] theorem dropAnswer_kprev (s : State) : s.dropAnswer.kprev = s.kprev := by
  unfold State.dropAnswer; split <;> rfl
@[simp] theorem dropAnswer_kcur (s : State) : s.dropAnswer.kcur = s.kcur := by
  unfold State.dropAnswer; split <;> rfl
@[simp] theorem dropAnswer_kevt (s : State) : s.dropAnswer.kevt = s.kevt := by
  unfold State.dropAnswer; split <;> rfl
@[simp] theorem dropAnswer_kprs (s : State) : s.dropAnswer.kprs = s.kprs := by
  unfold State.dropAnswer; split <;> rfl
@[simp] theorem dropAnswer_drq (s : State) : s.dropAnswer.drq = s.drq := by
  unfold State.dropAnswer; split <;> rfl
@[simp] theorem dropAnswer_firq (s : State) : s.dropAnswer.firq = s.firq := by
  unfold State.dropAnswer; split <;> rfl
@[simp] theorem dropAnswer_rdy (s : State) : s.dropAnswer.rdy = s.rdy := by
  unfold State.dropAnswer; split <;> rfl
@[simp] theorem dropAnswer_cfg (s : State) : s.dropAnswer.cfg = s.cfg := by
  unfold State.dropAnswer; split <;> rfl
@[simp] theorem dropAnswer_inbox (s : State) : s.dropAnswer.inbox = s.inbox := by
  unfold State.dropAnswer; split <;> rfl
@[simp] theorem dropAnswer_calls (s : State) : s.dropAnswer.calls = s.calls := by
  unfold State.dropAnswer; split <;> rfl
@[simp] theorem dropAnswer_reports (s : State) : s.dropAnswer.reports = s.reports := by
  unfold State.dropAnswer; split <;> rfl
@[simp] theorem dropAnswer_results (s : State) : s.dropAnswer.results = s.results := by
  unfold State.dropAnswer; split <;> rfl

end Sys2Proof.Machine
end

