-- ==== Sys2Proof/Laws/Ops.lean ====
section
/-! SUPPORT. For each shared operation, once, everything it can do. -/

namespace Sys2Proof.Machine

/-! ### The sequencer's moves -/

theorem acceptWord_eq (s : State) (w : Word) :
    acceptWord s w =
      { s with wl := w, calls := s.calls ++ [.ctlWriteData (~~~hiByte w)], bs := .wr2 } := rfl

theorem sendLowByte_eq (s : State) :
    sendLowByte s = { s with calls := s.calls ++ [.ctlWriteData (~~~loByte s.wl)], bs := .idle } := rfl

theorem startRead_eq (s : State) :
    startRead s =
      { s.dropAnswer with
        calls := s.calls ++ [.ctlReadData s.nextAnswer], ol := withHi s.ol (~~~s.nextAnswer), bs := .rd1 } := by
  simp [startRead, State.call, State.setOlHi]

theorem readLowByte_eq (s : State) :
    readLowByte s =
      { s.dropAnswer with
        calls := s.calls ++ [.ctlReadData s.nextAnswer], ol := withLo s.ol (~~~s.nextAnswer), bs := .rd2 } := by
  simp [readLowByte, State.call, State.setOlLo]

theorem terminalCount_eq (s : State) :
    terminalCount s =
      { s with icr := withBit s.icr s.cfg.layoutIcr.den false, dip := true, pend := withBit s.pend 4 true } := by
  simp [terminalCount, floppyIrqUpdate, floppyCondition]

/-- The start test does nothing, enters `WR1`, or starts a read (R92). -/
theorem dmaEvaluate_cases (s : State) :
    (¬(s.bs = .idle ∧ s.den = true ∧ s.drq = true) ∧ dmaEvaluate s = s) ∨
    ((s.bs = .idle ∧ s.den = true ∧ s.drq = true) ∧ s.ddw = true ∧ dmaEvaluate s = { s with bs := .wr1 }) ∨
    ((s.bs = .idle ∧ s.den = true ∧ s.drq = true) ∧ s.ddw = false ∧ dmaEvaluate s = startRead s) := by
  unfold dmaEvaluate
  split
  · rename_i h
    cases hd : s.ddw
    · exact .inr (.inr ⟨h, rfl, by simp⟩)
    · exact .inr (.inl ⟨h, rfl, by simp⟩)
  · rename_i h; exact .inl ⟨h, rfl⟩

/-- A data-request pulse moves a byte, starts a transfer, or is reported (R97). -/
theorem dataRequestPulse_cases (s : State) :
    (s.bs = .idle ∧ s.den = true ∧ dataRequestPulse s = dmaEvaluate s) ∨
    (s.bs = .idle ∧ s.den = false ∧ dataRequestPulse s = s.report (.an3 .idle)) ∨
    (s.bs = .wr2 ∧ dataRequestPulse s = sendLowByte s) ∨
    (s.bs = .rd1 ∧ dataRequestPulse s = readLowByte s) ∨
    (s.bs = .wr1 ∧ dataRequestPulse s = s.report (.an4 .wr1)) ∨
    (s.bs = .rd2 ∧ dataRequestPulse s = s.report (.an4 .rd2)) := by
  unfold dataRequestPulse
  cases hb : s.bs <;> cases hd : s.den <;> simp

/-! ### The drive control latch -/

theorem selectionOf_eq (l : DcrLayout) (b : Byte) :
    selectionOf l b = if b.getLsbD l.drv1 = false then .d1 else if b.getLsbD l.drv0 = false then .d0 else .none :=
  rfl

/-- The whole drive-control write (R151). -/
theorem driveControlWrite_eq (s : State) (b : Byte) :
    driveControlWrite s b =
      { s with
        dcr := b
        mc := ⟨s.mc.d0 && !bitAt b s.cfg.layoutDcr.rmc0, s.mc.d1 && !bitAt b s.cfg.layoutDcr.rmc1⟩
        sel := selectionOf s.cfg.layoutDcr b
        reports := s.reports ++
          (if bitAt b s.cfg.layoutDcr.drv1 = false ∧ bitAt b s.cfg.layoutDcr.drv0 = false then [.dg1 b] else [])
        calls := s.calls ++
          [.drvSetSide .d0 (!bitAt b s.cfg.layoutDcr.side), .drvSetSide .d1 (!bitAt b s.cfg.layoutDcr.side),
           .drvSetMotor .d0 (!bitAt b s.cfg.layoutDcr.mot0), .drvSetMotor .d1 (!bitAt b s.cfg.layoutDcr.mot1)] ++
          (if selectionOf s.cfg.layoutDcr b = s.sel then [] else [.ctlSetFloppy (selectionOf s.cfg.layoutDcr b)]) } := by
  unfold driveControlWrite routeDrive diagnoseBoth strobeMedia forwardLevels
  by_cases h1 : bitAt b s.cfg.layoutDcr.drv1 = false ∧ bitAt b s.cfg.layoutDcr.drv0 = false <;>
  by_cases h2 : selectionOf s.cfg.layoutDcr b = s.sel <;>
  simp [h1, h2, State.call, State.report]

/-! ### Reset -/

/-- The whole of `ResetAll()` (R241). -/
theorem resetAll_eq (s : State) :
    resetAll s =
      { clearStored s with
        calls := s.calls ++ resetCalls
        pend := withBit 0#8 4 (s.firq && s.cfg.fdcIrqInAgg) } := by
  simp [resetAll, clearStored, floppyIrqUpdate, floppyCondition, State.call, resetCalls]

theorem controllerReset_eq (s : State) :
    controllerReset s = { resetAll s with calls := s.calls ++ resetCalls ++ [.ctlSoftReset] } := by
  simp [controllerReset, resetAll_eq, State.call]

/-! ### The steps of a control write -/

theorem controlWriteOpen_eq (s : State) (rsc cli : Bool) (c : Byte) :
    controlWriteOpen s rsc cli c =
      { (if rsc then controllerReset s else s) with
        icr := c
        dip := (if rsc then controllerReset s else s).dip && !cli
        mci := if cli then ⟨false, false⟩ else (if rsc then controllerReset s else s).mci } := by
  cases cli <;> simp [controlWriteOpen, clearInterrupts]

/-- The state the start test of a control write sees (R121 steps 5 and 6). -/
theorem controlWriteClose_eq (s : State) :
    controlWriteClose s =
      dmaEvaluate
        { s with
          ol := withHi s.ol (statusCompose s)
          pend := withBit s.pend 4 (s.dip || s.mci.d0 || s.mci.d1 || (s.firq && s.cfg.fdcIrqInAgg)) } := rfl

theorem fetchFromController_eq (s : State) (ra : BitVec 2) :
    fetchFromController s ra =
      { s.dropAnswer with
        calls := s.calls ++ [.ctlReadReg ra s.nextAnswer], ol := withLo s.ol (~~~s.nextAnswer) } := by
  simp [fetchFromController, State.call, State.setOlLo]

theorem routeToController_eq (s : State) (ra : BitVec 2) (d : Byte) :
    routeToController s ra d = { s with calls := s.calls ++ [.ctlWriteReg ra (~~~d)] } := rfl

theorem readBackDrive_eq (s : State) : readBackDrive s = { s with ol := withLo s.ol s.dcr } := rfl

/-- The status byte reads eight elements and nothing else (R140). -/
theorem statusCompose_congr {s t : State} (hl : t.cfg.layoutStatus = s.cfg.layoutStatus)
    (hf : t.firq = s.firq) (hd : t.dip = s.dip) (hm : t.mc = s.mc) (hw : t.wps = s.wps) (hr : t.rdy = s.rdy) :
    statusCompose t = statusCompose s := by
  simp only [statusCompose, hl, hf, hd, hm, hw, hr]

/-! ### The keyboard sweep -/

/-- The sweep stops at the first difference in cursor order, or has compared every one of its positions
(R191). -/
theorem sweep_spec (m kprev : BitVec 128) (n : Nat) (c : BitVec 7) :
    (∃ k, k < n ∧ sweep m kprev n c = (c + BitVec.ofNat 7 (k + 1), true) ∧
      m.getLsbD (c + BitVec.ofNat 7 (k + 1)).toNat ≠ kprev.getLsbD (c + BitVec.ofNat 7 (k + 1)).toNat ∧
      ∀ j, j < k →
        m.getLsbD (c + BitVec.ofNat 7 (j + 1)).toNat = kprev.getLsbD (c + BitVec.ofNat 7 (j + 1)).toNat) ∨
    (sweep m kprev n c = (c + BitVec.ofNat 7 n, false) ∧
      ∀ j, j < n →
        m.getLsbD (c + BitVec.ofNat 7 (j + 1)).toNat = kprev.getLsbD (c + BitVec.ofNat 7 (j + 1)).toNat) := by
  induction n generalizing c with
  | zero => right; simp [sweep]
  | succ n ih =>
    have hshift : ∀ j : Nat, c + 1#7 + BitVec.ofNat 7 j = c + BitVec.ofNat 7 (j + 1) := by
      intro j; rw [BitVec.add_assoc, ← BitVec.ofNat_add, Nat.add_comm 1 j]
    by_cases hd : m.getLsbD (c + 1#7).toNat = kprev.getLsbD (c + 1#7).toNat
    · have hs : sweep m kprev (n + 1) c = sweep m kprev n (c + 1#7) := by
        simp only [sweep, hd, ne_eq, not_true_eq_false, if_false]
      have hall : ∀ k, (∀ j, j < k → m.getLsbD (c + 1#7 + BitVec.ofNat 7 (j + 1)).toNat =
            kprev.getLsbD (c + 1#7 + BitVec.ofNat 7 (j + 1)).toNat) →
          ∀ j, j < k + 1 → m.getLsbD (c + BitVec.ofNat 7 (j + 1)).toNat =
            kprev.getLsbD (c + BitVec.ofNat 7 (j + 1)).toNat := by
        intro k hk j hj
        cases j with
        | zero => exact hd
        | succ j => have := hk j (by omega); rwa [hshift] at this
      rcases ih (c + 1#7) with ⟨k, hk, hstop, hdiff, hbefore⟩ | ⟨hstop, hnone⟩
      · left
        refine ⟨k + 1, by omega, ?_, ?_, hall k hbefore⟩
        · rw [hs, hstop, hshift]
        · rwa [hshift] at hdiff
      · right
        exact ⟨by rw [hs, hstop, hshift], hall n hnone⟩
    · left
      refine ⟨0, by omega, ?_, hd, by intro j hj; omega⟩
      simp only [sweep, hd, ne_eq, not_false_eq_true, if_true]

/-- A sweep of all 128 positions that finds nothing leaves the cursor where it was and saw no difference
anywhere (R191). -/
theorem sweep_full_none (m kprev : BitVec 128) (c : BitVec 7)
    (h : (sweep m kprev 128 c).2 = false) : (sweep m kprev 128 c).1 = c := by
  rcases sweep_spec m kprev 128 c with ⟨k, _, hs, _⟩ | ⟨hs, _⟩
  · rw [hs] at h; exact absurd h (by simp)
  · rw [hs]; simp

/-! ### One step -/

/-- What a step can do: nothing with nothing delivered, the decoded operation on the state without its frame,
or a refusal by name. -/
theorem step_cases (s : State) :
    (s.inbox = [] ∧ step s = .next s) ∨
    (∃ f rest i, s.inbox = f :: rest ∧ decode s.cfg.layoutIcr f = .ok i ∧
      step s = exec i { s with inbox := rest }) ∨
    (∃ f rest e, s.inbox = f :: rest ∧ decode s.cfg.layoutIcr f = .error e ∧
      step s = .refused (.undecodable e)) := by
  unfold step State.fetch
  cases hb : s.inbox with
  | nil => exact .inl ⟨rfl, rfl⟩
  | cons f rest =>
    cases hd : decode s.cfg.layoutIcr f with
    | ok i => exact .inr (.inl ⟨f, rest, i, rfl, hd, by simp [hd]⟩)
    | error e => exact .inr (.inr ⟨f, rest, e, rfl, hd, by simp [hd]⟩)

end Sys2Proof.Machine
end

