-- ==== Sys2Proof/Laws/ControlWrite.lean ====
section
/-! SUPPORT. What the sequencer's moves keep, and what a whole control write does, whichever its
sub-operation and its `RSC` bit: the provers cite these and unfold none of the steps. -/

namespace Sys2Proof.Machine

/-! ### The sequencer's moves keep everything but `BS`, `OL` and the streams -/

/-- What a start test and a data-request pulse leave as it was (R92, R97). -/
structure SequencerFrame (s t : State) : Prop where
  icr : t.icr = s.icr
  dcr : t.dcr = s.dcr
  wl : t.wl = s.wl
  dip : t.dip = s.dip
  mc : t.mc = s.mc
  mci : t.mci = s.mci
  wps : t.wps = s.wps
  sel : t.sel = s.sel
  mask : t.mask = s.mask
  pend : t.pend = s.pend
  kprev : t.kprev = s.kprev
  kcur : t.kcur = s.kcur
  kevt : t.kevt = s.kevt
  kprs : t.kprs = s.kprs
  drq : t.drq = s.drq
  firq : t.firq = s.firq
  rdy : t.rdy = s.rdy
  cfg : t.cfg = s.cfg
  inbox : t.inbox = s.inbox
  results : t.results = s.results
  calls : ∃ a, t.calls = s.calls ++ a
  reports : ∃ a, t.reports = s.reports ++ a ∧ a.length ≤ 1

theorem SequencerFrame.refl (s : State) : SequencerFrame s s := by constructor <;> simp

theorem dmaEvaluate_frame (s : State) : SequencerFrame s (dmaEvaluate s) := by
  rcases dmaEvaluate_cases s with ⟨_, h⟩ | ⟨_, _, h⟩ | ⟨_, _, h⟩ <;> rw [h]
  · exact .refl s
  · constructor <;> simp
  · rw [startRead_eq]; constructor <;> simp

theorem dataRequestPulse_frame (s : State) : SequencerFrame s (dataRequestPulse s) := by
  rcases dataRequestPulse_cases s with ⟨_, _, h⟩ | ⟨_, _, h⟩ | ⟨_, h⟩ | ⟨_, h⟩ | ⟨_, h⟩ | ⟨_, h⟩ <;> rw [h]
  · exact dmaEvaluate_frame s
  · constructor <;> simp
  · rw [sendLowByte_eq]; constructor <;> simp
  · rw [readLowByte_eq]; constructor <;> simp
  · constructor <;> simp
  · constructor <;> simp

/-! ### The end of a control write -/

/-- Steps 5 to 7: only `OL[15:8]`, `PEND[4]`, and what a starting transfer moves, change (R121, R128, R129). -/
structure CloseSpec (v t : State) : Prop where
  icr : t.icr = v.icr
  dcr : t.dcr = v.dcr
  wl : t.wl = v.wl
  dip : t.dip = v.dip
  mc : t.mc = v.mc
  mci : t.mci = v.mci
  wps : t.wps = v.wps
  sel : t.sel = v.sel
  mask : t.mask = v.mask
  pend : t.pend = withBit v.pend 4 (v.dip || v.mci.d0 || v.mci.d1 || (v.firq && v.cfg.fdcIrqInAgg))
  kprev : t.kprev = v.kprev
  kcur : t.kcur = v.kcur
  kevt : t.kevt = v.kevt
  kprs : t.kprs = v.kprs
  drq : t.drq = v.drq
  firq : t.firq = v.firq
  rdy : t.rdy = v.rdy
  cfg : t.cfg = v.cfg
  inbox : t.inbox = v.inbox
  reports : t.reports = v.reports
  results : t.results = v.results
  ol_low : loByte t.ol = loByte v.ol
  no_start : ¬(v.bs = .idle ∧ v.den = true ∧ v.drq = true) →
    t.bs = v.bs ∧ t.calls = v.calls ∧ hiByte t.ol = statusCompose v ∧ t.answers = v.answers ∧ t.nfree = v.nfree
  start_write : v.bs = .idle ∧ v.den = true ∧ v.drq = true → v.ddw = true →
    t.bs = .wr1 ∧ t.calls = v.calls ∧ hiByte t.ol = statusCompose v ∧ t.answers = v.answers ∧ t.nfree = v.nfree
  start_read : v.bs = .idle ∧ v.den = true ∧ v.drq = true → v.ddw = false →
    t.bs = .rd1 ∧ t.calls = v.calls ++ [.ctlReadData v.nextAnswer] ∧ hiByte t.ol = ~~~v.nextAnswer ∧
    t.answers = v.dropAnswer.answers ∧ t.nfree = v.dropAnswer.nfree

/-- The state steps 5 and 6 leave. -/
def statusWritten (v : State) : State :=
  { v with
    ol := withHi v.ol (statusCompose v)
    pend := withBit v.pend 4 (v.dip || v.mci.d0 || v.mci.d1 || (v.firq && v.cfg.fdcIrqInAgg)) }

theorem controlWriteClose_statusWritten (v : State) :
    controlWriteClose v = dmaEvaluate (statusWritten v) := rfl

theorem statusWritten_drop (v : State) :
    (statusWritten v).dropAnswer.answers = v.dropAnswer.answers ∧
    (statusWritten v).dropAnswer.nfree = v.dropAnswer.nfree := by
  unfold State.dropAnswer statusWritten; cases v.answers <;> exact ⟨rfl, rfl⟩

theorem controlWriteClose_spec (v : State) : CloseSpec v (controlWriteClose v) := by
  rw [controlWriteClose_statusWritten]
  have f := dmaEvaluate_frame (statusWritten v)
  have hr : (dmaEvaluate (statusWritten v)).reports = v.reports := by
    rcases dmaEvaluate_cases (statusWritten v) with ⟨_, h⟩ | ⟨_, _, h⟩ | ⟨_, _, h⟩ <;> rw [h]
    · rfl
    · rfl
    · rw [startRead_eq]; simp [statusWritten]
  refine
    { f with
      pend := f.pend
      reports := hr
      ol_low := ?_
      no_start := fun hn => ?_
      start_write := fun hs hd => ?_
      start_read := fun hs hd => ?_ }
  · rcases dmaEvaluate_cases (statusWritten v) with ⟨_, h⟩ | ⟨_, _, h⟩ | ⟨_, _, h⟩ <;> rw [h]
    · simp [statusWritten]
    · simp [statusWritten]
    · rw [startRead_eq]; simp [statusWritten]
  · rcases dmaEvaluate_cases (statusWritten v) with ⟨_, h⟩ | ⟨h', _⟩ | ⟨h', _⟩
    · rw [h]; exact ⟨rfl, rfl, hiByte_withHi _ _, rfl, rfl⟩
    · exact absurd h' hn
    · exact absurd h' hn
  · rcases dmaEvaluate_cases (statusWritten v) with ⟨h', _⟩ | ⟨_, _, h⟩ | ⟨_, hd', _⟩
    · exact absurd hs h'
    · rw [h]; exact ⟨rfl, rfl, hiByte_withHi _ _, rfl, rfl⟩
    · exact absurd (hd.symm.trans hd') (by simp)
  · rcases dmaEvaluate_cases (statusWritten v) with ⟨h', _⟩ | ⟨_, hd', _⟩ | ⟨_, _, h⟩
    · exact absurd hs h'
    · exact absurd (hd.symm.trans hd') (by simp)
    · rw [h, startRead_eq]
      exact ⟨rfl, rfl, hiByte_withHi _ _, (statusWritten_drop v).1, (statusWritten_drop v).2⟩

/-- The calls of steps 5 to 7: at most one read of the controller's data port (R133). -/
theorem controlWriteClose_calls (v : State) :
    ∃ b, (controlWriteClose v).calls = v.calls ++
      (if v.bs = .idle ∧ v.den = true ∧ v.drq = true ∧ v.ddw = false then [.ctlReadData b] else []) := by
  have c := controlWriteClose_spec v
  refine ⟨v.nextAnswer, ?_⟩
  by_cases h : v.bs = .idle ∧ v.den = true ∧ v.drq = true
  · cases hd : v.ddw
    · rw [(c.start_read h hd).2.1]; simp [h]
    · rw [(c.start_write h hd).2.1]; simp
  · rw [(c.no_start h).2.1, if_neg (fun ⟨a, b, c, _⟩ => h ⟨a, b, c⟩), List.append_nil]

/-! ### Step 4 -/

/-- Step 4 of a control write from `o` gives `mid`: one of the four sub-operations, the drive-control write with
the byte the operation carries (R122 to R125). -/
def SubOperation (l : IcrLayout) (i : Instr) (o mid : State) : Prop :=
  (∃ ra d, mid = routeToController o ra d) ∨
  (∃ d, driveByte l i = some d ∧ mid = driveControlWrite o d) ∨
  (∃ ra, mid = fetchFromController o ra) ∨
  mid = readBackDrive o

/-- Every control write is steps 1 to 3, a sub-operation, and steps 5 to 7 (R121). -/
theorem controlWrite_shape (i : Instr) (s : State) (m : Mods) (h : controlMods s.cfg.layoutIcr i = some m) :
    ∃ c mid, exec i s = .next (controlWriteClose mid) ∧
      (s.cfg.layoutIcr.Wf → modsOf s.cfg.layoutIcr c = m) ∧
      SubOperation s.cfg.layoutIcr i (controlWriteOpen s m.rsc m.cli c) mid := by
  cases i <;> simp only [controlMods, Option.some.injEq] at h <;> try (exact absurd h (by simp))
  · rename_i w
    subst h
    refine ⟨hiByte w, _, rfl, fun _ => rfl, ?_⟩
    cases h1 : bitAt (hiByte w) s.cfg.layoutIcr.adw <;> cases h2 : bitAt (hiByte w) s.cfg.layoutIcr.sct <;>
      simp only [Bool.false_eq_true, if_false, if_true]
    · exact .inr (.inr (.inr rfl))
    · exact .inr (.inr (.inl ⟨_, rfl⟩))
    · refine .inr (.inl ⟨loByte w, ?_, rfl⟩)
      simp only [driveByte]; exact if_pos ⟨h1, h2⟩
    · exact .inl ⟨_, _, rfl⟩
  · subst h; exact ⟨_, _, rfl, fun hw => modsOf_ctlByte hw _ _ _ _, .inl ⟨_, _, rfl⟩⟩
  · subst h; exact ⟨_, _, rfl, fun hw => modsOf_ctlByte hw _ _ _ _, .inr (.inl ⟨_, rfl, rfl⟩)⟩
  · subst h; exact ⟨_, _, rfl, fun hw => modsOf_ctlByte hw _ _ _ _, .inr (.inr (.inl ⟨_, rfl⟩))⟩
  · subst h; exact ⟨_, _, rfl, fun hw => modsOf_ctlByte hw _ _ _ _, .inr (.inr (.inr rfl))⟩

/-- What a sub-operation leaves, and what it may write (R122 to R125, R151). -/
structure SubSpec (l : IcrLayout) (i : Instr) (o mid : State) : Prop where
  bs : mid.bs = o.bs
  icr : mid.icr = o.icr
  wl : mid.wl = o.wl
  dip : mid.dip = o.dip
  mci : mid.mci = o.mci
  wps : mid.wps = o.wps
  mask : mid.mask = o.mask
  pend : mid.pend = o.pend
  kprev : mid.kprev = o.kprev
  kcur : mid.kcur = o.kcur
  kevt : mid.kevt = o.kevt
  kprs : mid.kprs = o.kprs
  drq : mid.drq = o.drq
  firq : mid.firq = o.firq
  rdy : mid.rdy = o.rdy
  cfg : mid.cfg = o.cfg
  inbox : mid.inbox = o.inbox
  results : mid.results = o.results
  calls : ∃ a, mid.calls = o.calls ++ a
  reports : ∃ new, mid.reports = o.reports ++ new ∧ new.length ≤ 1 ∧ ∀ r ∈ new, isAnomaly r = false
  latch : (mid.sel = o.sel ∧ mid.dcr = o.dcr ∧ mid.mc = o.mc) ∨
    ∃ d, driveByte l i = some d ∧ mid.dcr = d ∧ mid.sel = selectionOf o.cfg.layoutDcr d ∧
      mid.mc = ⟨o.mc.d0 && !bitAt d o.cfg.layoutDcr.rmc0, o.mc.d1 && !bitAt d o.cfg.layoutDcr.rmc1⟩

theorem SubOperation.spec {l : IcrLayout} {i : Instr} {o mid : State} (h : SubOperation l i o mid) :
    SubSpec l i o mid := by
  rcases h with ⟨ra, d, rfl⟩ | ⟨d, hd, rfl⟩ | ⟨ra, rfl⟩ | rfl
  · rw [routeToController_eq]; constructor <;> simp
  · rw [driveControlWrite_eq]
    refine { bs := rfl, icr := rfl, wl := rfl, dip := rfl, mci := rfl, wps := rfl, mask := rfl, pend := rfl,
             kprev := rfl, kcur := rfl, kevt := rfl, kprs := rfl, drq := rfl, firq := rfl, rdy := rfl, cfg := rfl,
             inbox := rfl, results := rfl, calls := ⟨_, List.append_assoc _ _ _⟩,
             reports := ⟨_, rfl, ?_, ?_⟩, latch := .inr ⟨d, hd, rfl, rfl, rfl⟩ }
    · split <;> simp
    · intro r hr; split at hr <;> simp at hr; subst hr; rfl
  · rw [fetchFromController_eq]; constructor <;> simp
  · rw [readBackDrive_eq]; constructor <;> simp

/-! ### Steps 1 to 3 -/

/-- The state step 1 leaves: reset if `RSC` (R127). -/
def openBase (s : State) (rsc : Bool) : State := if rsc then controllerReset s else s

@[simp] theorem openBase_false (s : State) : openBase s false = s := rfl

/-- After a reset by `RSC` the stored elements are at their reset values (R241). -/
theorem openBase_true (s : State) :
    openBase s true =
      { clearStored s with
        calls := s.calls ++ resetCalls ++ [.ctlSoftReset]
        pend := withBit 0#8 4 (s.firq && s.cfg.fdcIrqInAgg) } := by
  simp only [openBase, if_true, controllerReset_eq, resetAll_eq]

/-- Steps 1 to 3, field by field over the state step 1 leaves. -/
theorem controlWriteOpen_base (s : State) (rsc cli : Bool) (c : Byte) :
    controlWriteOpen s rsc cli c =
      { openBase s rsc with
        icr := c
        dip := (openBase s rsc).dip && !cli
        mci := if cli then ⟨false, false⟩ else (openBase s rsc).mci } :=
  controlWriteOpen_eq s rsc cli c

/-- What step 1 keeps with and without the reset. -/
theorem openBase_kept (s : State) (rsc : Bool) :
    (openBase s rsc).drq = s.drq ∧ (openBase s rsc).firq = s.firq ∧ (openBase s rsc).rdy = s.rdy ∧
    (openBase s rsc).cfg = s.cfg ∧ (openBase s rsc).inbox = s.inbox ∧ (openBase s rsc).reports = s.reports ∧
    (openBase s rsc).results = s.results ∧ (openBase s rsc).answers = s.answers ∧
    (openBase s rsc).nfree = s.nfree ∧ ∃ a, (openBase s rsc).calls = s.calls ++ a := by
  cases rsc
  · simp
  · rw [openBase_true]; exact ⟨rfl, rfl, rfl, rfl, rfl, rfl, rfl, rfl, rfl, _, List.append_assoc _ _ _⟩

/-! ### The whole control write -/

/-- What a control write does, over the state step 1 leaves (R121). -/
structure ControlWriteSpec (i : Instr) (s : State) (m : Mods) (t : State) : Prop where
  dip : t.dip = ((openBase s m.rsc).dip && !m.cli)
  mci : t.mci = if m.cli then ⟨false, false⟩ else (openBase s m.rsc).mci
  pend_floppy : t.pend.getLsbD 4 = (t.dip || t.mci.d0 || t.mci.d1 || (s.firq && s.cfg.fdcIrqInAgg))
  pend_others : ∀ k, k ≠ 4 → t.pend.getLsbD k = (openBase s m.rsc).pend.getLsbD k
  wl : t.wl = (openBase s m.rsc).wl
  wps : t.wps = (openBase s m.rsc).wps
  mask : t.mask = (openBase s m.rsc).mask
  kprev : t.kprev = (openBase s m.rsc).kprev
  kcur : t.kcur = (openBase s m.rsc).kcur
  kevt : t.kevt = (openBase s m.rsc).kevt
  kprs : t.kprs = (openBase s m.rsc).kprs
  drq : t.drq = s.drq
  firq : t.firq = s.firq
  rdy : t.rdy = s.rdy
  cfg : t.cfg = s.cfg
  inbox : t.inbox = s.inbox
  results : t.results = s.results
  calls : ∃ a, t.calls = s.calls ++ a
  reports : ∃ new, t.reports = s.reports ++ new ∧ new.length ≤ 1 ∧ ∀ r ∈ new, isAnomaly r = false
  latch : (t.sel = (openBase s m.rsc).sel ∧ t.dcr = (openBase s m.rsc).dcr ∧ t.mc = (openBase s m.rsc).mc) ∨
    ∃ d, driveByte s.cfg.layoutIcr i = some d ∧ t.dcr = d ∧ t.sel = selectionOf s.cfg.layoutDcr d ∧
      t.mc = ⟨(openBase s m.rsc).mc.d0 && !bitAt d s.cfg.layoutDcr.rmc0,
        (openBase s m.rsc).mc.d1 && !bitAt d s.cfg.layoutDcr.rmc1⟩

theorem controlWrite_spec {i : Instr} {s t : State} {m : Mods} (h : controlMods s.cfg.layoutIcr i = some m)
    (he : exec i s = .next t) : ControlWriteSpec i s m t := by
  obtain ⟨c, mid, he', -, hmid⟩ := controlWrite_shape i s m h
  rw [he'] at he; injection he with he; subst he
  have f := hmid.spec
  rw [controlWriteOpen_base] at f
  have b := controlWriteClose_spec mid
  obtain ⟨k1, k2, k3, k4, k5, k6, k7, -, -, a0, k8⟩ := openBase_kept s m.rsc
  obtain ⟨a1, f1⟩ := f.calls
  obtain ⟨a2, f2⟩ := controlWriteClose_calls mid
  obtain ⟨new, f3, f4, f5⟩ := f.reports
  refine
    { dip := b.dip.trans f.dip, mci := b.mci.trans f.mci, pend_floppy := ?_, pend_others := fun k hk => ?_
      wl := b.wl.trans f.wl, wps := b.wps.trans f.wps, mask := b.mask.trans f.mask
      kprev := b.kprev.trans f.kprev, kcur := b.kcur.trans f.kcur, kevt := b.kevt.trans f.kevt
      kprs := b.kprs.trans f.kprs, drq := (b.drq.trans f.drq).trans k1, firq := (b.firq.trans f.firq).trans k2
      rdy := (b.rdy.trans f.rdy).trans k3, cfg := (b.cfg.trans f.cfg).trans k4
      inbox := (b.inbox.trans f.inbox).trans k5, results := (b.results.trans f.results).trans k7
      calls := ⟨_, by rw [f2, f1]; simp only [k8, List.append_assoc]; rfl⟩
      reports := ⟨new, by rw [b.reports, f3]; simp only [k6], f4, f5⟩, latch := ?_ }
  · rw [b.pend, getLsbD_withBit, b.dip, b.mci, f.firq, f.cfg]; simp [k2, k4]
  · rw [b.pend, getLsbD_withBit, if_neg (fun e => hk e.1), f.pend]
  · rw [b.sel, b.dcr, b.mc]
    rcases f.latch with g | ⟨d, g1, g2, g3, g4⟩
    · exact .inl g
    · simp only [k4] at g3 g4
      exact .inr ⟨d, g1, g2, g3, g4⟩

/-- For a control write, `resetsBlock` is its `RSC` bit and `clearsInterrupts` its `CLI` bit. -/
theorem resetsBlock_of_controlMods {l : IcrLayout} {i : Instr} {m : Mods} (h : controlMods l i = some m) :
    resetsBlock l i = m.rsc ∧ clearsInterrupts l i = m.cli := by
  cases i <;> simp [controlMods] at h <;> simp [resetsBlock, clearsInterrupts, controlMods, ← h]

end Sys2Proof.Machine
end

