-- ==== Sys2Proof/Laws/PerInstr.lean ====
section
/-! SUPPORT. Facts about every operation as syntax, one lemma per constructor.
`FrameShape`: the frame of an operation has the format and the fixed length spec/30_encoding.md R60 to R62 and R70
give it. -/

namespace Sys2Proof

/-- The format of an operation (R75) and the length of its frame in bytes (R60: "fixed length"). -/
def frameShape : Instr → Format × Nat
  | .rd0 | .rd1 | .rd2 | .rd3 => (.bus, 1)
  | .wr0 _ | .wr1 _ | .wr2 _ | .wr3 _ => (.bus, 3)
  | .ctlFdcw _ _ _ | .ctlDrvw _ _ _ | .ctlFdcr _ _ _ | .ctlDrvr _ _ _ => (.ctl, 2)
  | .ktick _ => (.evt, 17)
  | .reset | .drqLine _ | .firqLine _ | .rdyLine _ _ | .wpLine _ _ | .idxLine _ _ | .mchg _ | .kack
  | .setmask _ _ | .setpend _ _ => (.evt, 1)

/-- The frame of `i` has the format and length of its row, under every layout. -/
def Laws.FrameShape.Statement (i : Instr) : Prop :=
  ∀ l : IcrLayout, ((encode l i).format, (encode l i).bytes.length) = frameShape i

theorem Laws.FrameShape.rd0 : Laws.FrameShape.Statement .rd0 := fun _ => rfl
theorem Laws.FrameShape.rd1 : Laws.FrameShape.Statement .rd1 := fun _ => rfl
theorem Laws.FrameShape.rd2 : Laws.FrameShape.Statement .rd2 := fun _ => rfl
theorem Laws.FrameShape.rd3 : Laws.FrameShape.Statement .rd3 := fun _ => rfl
theorem Laws.FrameShape.wr0 (w : Word) : Laws.FrameShape.Statement (.wr0 w) := fun _ => rfl
theorem Laws.FrameShape.wr1 (w : Word) : Laws.FrameShape.Statement (.wr1 w) := fun _ => rfl
theorem Laws.FrameShape.wr2 (w : Word) : Laws.FrameShape.Statement (.wr2 w) := fun _ => rfl
theorem Laws.FrameShape.wr3 (w : Word) : Laws.FrameShape.Statement (.wr3 w) := fun _ => rfl
theorem Laws.FrameShape.ctlFdcw (m : Mods) (ra : BitVec 2) (d : Byte) : Laws.FrameShape.Statement (.ctlFdcw m ra d) := fun _ => rfl
theorem Laws.FrameShape.ctlDrvw (m : Mods) (ra : BitVec 2) (d : Byte) : Laws.FrameShape.Statement (.ctlDrvw m ra d) := fun _ => rfl
theorem Laws.FrameShape.ctlFdcr (m : Mods) (ra : BitVec 2) (d : Byte) : Laws.FrameShape.Statement (.ctlFdcr m ra d) := fun _ => rfl
theorem Laws.FrameShape.ctlDrvr (m : Mods) (ra : BitVec 2) (d : Byte) : Laws.FrameShape.Statement (.ctlDrvr m ra d) := fun _ => rfl
theorem Laws.FrameShape.reset : Laws.FrameShape.Statement .reset := fun _ => rfl
theorem Laws.FrameShape.drqLine (v : Bool) : Laws.FrameShape.Statement (.drqLine v) := fun _ => rfl
theorem Laws.FrameShape.firqLine (v : Bool) : Laws.FrameShape.Statement (.firqLine v) := fun _ => rfl
theorem Laws.FrameShape.rdyLine (d : Drive) (v : Bool) : Laws.FrameShape.Statement (.rdyLine d v) := fun _ => rfl
theorem Laws.FrameShape.wpLine (d : Drive) (v : Bool) : Laws.FrameShape.Statement (.wpLine d v) := fun _ => rfl
theorem Laws.FrameShape.idxLine (d : Drive) (v : Bool) : Laws.FrameShape.Statement (.idxLine d v) := fun _ => rfl
theorem Laws.FrameShape.mchg (d : Drive) : Laws.FrameShape.Statement (.mchg d) := fun _ => rfl
theorem Laws.FrameShape.ktick (m : BitVec 128) : Laws.FrameShape.Statement (.ktick m) := fun _ => rfl
theorem Laws.FrameShape.kack : Laws.FrameShape.Statement .kack := fun _ => rfl
theorem Laws.FrameShape.setmask (i : BitVec 3) (v : Bool) : Laws.FrameShape.Statement (.setmask i v) := fun _ => rfl
theorem Laws.FrameShape.setpend (i : BitVec 3) (v : Bool) : Laws.FrameShape.Statement (.setpend i v) := fun _ => rfl

end Sys2Proof
end

