-- ==== Sys2Proof/Tests/Slice0.lean ====
section
/-! SUPPORT. The model's own tests. The words, the start states and the expected values are those of
spec/95_test_vectors.md (the section is named in each comment) or are worked out by hand from the rule named.
The last part shows, for each obligation that has hypotheses, values that meet them. -/

namespace Sys2Proof.Tests

open Sys2Proof.Machine

/-- The outcome is a next state with the given property. -/
def after (o : Host.Outcome State Fault Refusal) (p : State → Bool) : Bool :=
  match o with
  | .next t => p t
  | .fault _ => false
  | .refused _ => false

/-- The outcome is the given refusal. -/
def refusedWith (o : Host.Outcome State Fault Refusal) (r : Refusal) : Bool :=
  match o with
  | .next _ => false
  | .fault _ => false
  | .refused q => q == r

/-- The reset state with the sequencer in a state, a control byte and a data-request level (section 2.1). -/
def seq (b : Bs) (icr : Byte) (drq : Bool) : State := { State.reset with bs := b, icr := icr, drq := drq }

/-- The reset state with something for every flag a control write can clear (section 2.2, modifiers). -/
def pendingState : State :=
  { State.reset with mc := ⟨true, true⟩, mci := ⟨true, false⟩, dip := true, pend := 0x10#8, mask := 0x10#8 }

/-- A set of keys that are down. -/
def keys : List (BitVec 7) → BitVec 128
  | [] => 0#128
  | p :: ps => withBit (keys ps) p.toNat true

/-- The decoder at the default layout. -/
def decodeStd (f : Format) (bytes : List Byte) : Except DecodeError Instr :=
  decode IcrLayout.standard { format := f, bytes := bytes }

/-- The answer of the decoder is the given operation. -/
def decodesTo (f : Format) (bytes : List Byte) (i : Instr) : Bool :=
  match decodeStd f bytes with
  | .ok j => j == i
  | .error _ => false

/-- The decoder refuses the frame by the given name. -/
def decodeFails (f : Format) (bytes : List Byte) (e : DecodeError) : Bool :=
  match decodeStd f bytes with
  | .ok _ => false
  | .error e' => e' == e

/-! ### WellFormed (R172, R176) -/

theorem test_wf_refuses_setpend_0 : WellFormed (.setpend 0#3 true) = false := by decide
theorem test_wf_refuses_setpend_4 : WellFormed (.setpend 4#3 false) = false := by decide
theorem test_wf_takes_other_setpend :
    ∀ i : BitVec 3, i ≠ 0#3 → i ≠ 4#3 → WellFormed (.setpend i true) = true := by decide
theorem test_layouts_wf :
    IcrLayout.standard.Wf ∧ StatusLayout.standard.Wf ∧ DcrLayout.standard.Wf ∧ (DcrLayout.withSideBit 6).Wf := by
  decide

/-! ### Decoding: words written out from R61, R62, R70 -/

theorem test_decode_rd0 : decodesTo .bus [0b00000000#8] .rd0 = true := by decide
theorem test_decode_rd1 : decodesTo .bus [0b00000001#8] .rd1 = true := by decide
theorem test_decode_rd2 : decodesTo .bus [0b00000010#8] .rd2 = true := by decide
theorem test_decode_rd3 : decodesTo .bus [0b00000011#8] .rd3 = true := by decide
theorem test_decode_wr0 : decodesTo .bus [0b00000100#8, 0x34#8, 0x12#8] (.wr0 0x1234#16) = true := by decide
theorem test_decode_wr1 : decodesTo .bus [0b00000101#8, 0x00#8, 0x60#8] (.wr1 0x6000#16) = true := by decide
theorem test_decode_wr2 : decodesTo .bus [0b00000110#8, 0xCD#8, 0xAB#8] (.wr2 0xABCD#16) = true := by decide
theorem test_decode_wr3 : decodesTo .bus [0b00000111#8, 0xEF#8, 0xBE#8] (.wr3 0xBEEF#16) = true := by decide

/-- `0000_1111` is `ADW`, `SCT`, `RA = 3`. -/
theorem test_decode_ctl_fdcw :
    decodesTo .ctl [0xFF#8, 0b00001111#8] (.ctlFdcw ⟨false, false, false, false⟩ 3#2 0xFF#8) = true := by decide

/-- `1001_1000` is `CLI`, `RSC`, `ADW`. -/
theorem test_decode_ctl_drvw :
    decodesTo .ctl [0xD8#8, 0b10011000#8] (.ctlDrvw ⟨true, false, false, true⟩ 0#2 0xD8#8) = true := by decide

/-- `1000_0110` is `CLI`, `SCT`, `RA = 2`. -/
theorem test_decode_ctl_fdcr :
    decodesTo .ctl [0x00#8, 0b10000110#8] (.ctlFdcr ⟨true, false, false, false⟩ 2#2 0x00#8) = true := by decide

/-- `0110_0011` is `DDW`, `DEN`, `RA = 3`. -/
theorem test_decode_ctl_drvr :
    decodesTo .ctl [0xAB#8, 0b01100011#8] (.ctlDrvr ⟨false, true, true, false⟩ 3#2 0xAB#8) = true := by decide

theorem test_decode_reset : decodesTo .evt [0x00#8] .reset = true := by decide
theorem test_decode_drq_line :
    decodesTo .evt [0x11#8] (.drqLine true) && decodesTo .evt [0x10#8] (.drqLine false) = true := by decide
theorem test_decode_firq_line :
    decodesTo .evt [0x21#8] (.firqLine true) && decodesTo .evt [0x20#8] (.firqLine false) = true := by decide
theorem test_decode_rdy_line :
    decodesTo .evt [0x33#8] (.rdyLine .d1 true) && decodesTo .evt [0x31#8] (.rdyLine .d0 true) = true := by decide
theorem test_decode_wp_line :
    decodesTo .evt [0x41#8] (.wpLine .d0 true) && decodesTo .evt [0x42#8] (.wpLine .d1 false) = true := by decide
theorem test_decode_idx_line :
    decodesTo .evt [0x51#8] (.idxLine .d0 true) && decodesTo .evt [0x52#8] (.idxLine .d1 false) = true := by decide
theorem test_decode_mchg :
    decodesTo .evt [0x60#8] (.mchg .d0) && decodesTo .evt [0x61#8] (.mchg .d1) = true := by decide
theorem test_decode_ktick :
    decodesTo .evt [0x70#8, 0x01#8, 0#8, 0#8, 0#8, 0#8, 0#8, 0#8, 0#8, 0#8, 0#8, 0#8, 0#8, 0#8, 0#8, 0#8, 0x80#8]
      (.ktick (keys [0#7, 127#7])) = true := by decide
theorem test_decode_kack : decodesTo .evt [0x80#8] .kack = true := by decide
theorem test_decode_setmask :
    decodesTo .evt [0x99#8] (.setmask 4#3 true) && decodesTo .evt [0x9E#8] (.setmask 7#3 false) = true := by decide
theorem test_decode_setpend :
    decodesTo .evt [0xA5#8] (.setpend 2#3 true) && decodesTo .evt [0xA4#8] (.setpend 2#3 false) = true := by decide

/-- No event code matches two rows of the table (R70: "unambiguous"). -/
theorem test_event_rows_disjoint :
    evtRows.Pairwise (fun a b => (a.2 ^^^ b.2) &&& a.1 &&& b.1 ≠ 0#8) := by decide

theorem test_decode_refuses_codes :
    decodeFails .evt [0x01#8] .eventCode && decodeFails .evt [0x62#8] .eventCode &&
    decodeFails .evt [0xB0#8] .eventCode && decodeFails .bus [0x08#8] .busDescriptor &&
    decodeFails .bus [] .emptyFrame = true := by decide

/-- A write of one byte, a read with data, a control word of one byte (R42). -/
theorem test_decode_refuses_widths :
    decodeFails .bus [0x05#8, 0x55#8] .accessWidth && decodeFails .bus [0x01#8, 0x00#8] .accessWidth &&
    decodeFails .ctl [0x0C#8] .accessWidth && decodeFails .evt [0x70#8] .eventOperand = true := by decide

/-! ### The opcode table's numbers -/

theorem test_table_bus : decodeTableWord 8 5 = some (.wr1 0#16) ∧ decodeTableWord 3 0 = some .rd0 := by decide
theorem test_table_ctl : decodeTableWord 16 0x0C00 = some (.ctlFdcw ⟨false, false, false, false⟩ 0#2 0#8) := by decide
theorem test_table_evt :
    decodeTableWord 8 0 = some .reset ∧ decodeTableWord 8 0x70 = some (.ktick 0#128) ∧
    decodeTableWord 8 0x33 = some (.rdyLine .d1 true) ∧ decodeTableWord 8 0x08 = none := by decide

/-- The operation placed runs at the very next step from reset. -/
theorem test_fetch_word_runs :
    after (step (State.reset.withFetchWord 8 0x11))
      (fun t => t.drq == true && t.reports == [.an3 .idle] && t.inbox == []) = true := by decide

/-! ### The DMA sequencer (section 2.1, the row's number in the name) -/

theorem test_row1_start_write :
    after (exec (.drqLine true) (seq .idle 0x60#8 false)) (fun t => t.bs == .wr1 && t.drq && t.dmar) = true := by
  decide
theorem test_row2_start_read :
    after (exec (.drqLine true) { seq .idle 0x20#8 false with answers := [0xC3#8] })
      (fun t => t.bs == .rd1 && t.ol == 0x3C00#16 && t.calls == [.ctlReadData 0xC3#8] && t.answers == []) = true := by
  decide
theorem test_row5_wr0 :
    after (exec (.wr0 0x1234#16) (seq .wr1 0x60#8 true))
      (fun t => t.calls == [.ctlWriteData 0xED#8] && t.wl == 0x1234#16 && t.bs == .wr2 && t.icr == 0x60#8) = true := by
  decide
theorem test_row6_wr2 :
    after (exec (.wr2 0x1234#16) (seq .wr1 0x60#8 true))
      (fun t => t.calls == [.ctlWriteData 0xED#8] && t.bs == .wr2 && t.icr == 0x40#8 && t.dip && t.pend == 0x10#8)
      = true := by decide
theorem test_row11_wr0_out_of_turn :
    after (exec (.wr0 0x5678#16) { seq .wr2 0x60#8 false with wl := 0x1234#16 })
      (fun t => t.reports == [.an2 .wr2 0#2] && t.wl == 0x1234#16 && t.bs == .wr2 && t.calls == []) = true := by decide
theorem test_row12_wr2_out_of_turn :
    after (exec (.wr2 0x5678#16) { seq .wr2 0x60#8 false with wl := 0x1234#16 })
      (fun t => t.reports == [.an2 .wr2 2#2] && t.icr == 0x60#8 && !t.dip) = true := by decide
theorem test_row16_rd0_out_of_turn :
    after (exec .rd0 { seq .rd1 0x20#8 false with ol := 0x3CFF#16 })
      (fun t => t.reports == [.an1 .rd1 0#2] && t.results == [.word 0x3CFF#16] && t.bs == .rd1) = true := by decide
theorem test_row18_rd0 :
    after (exec .rd0 { seq .rd2 0x20#8 false with ol := 0x3CF0#16 })
      (fun t => t.results == [.word 0x3CF0#16] && t.bs == .idle && t.icr == 0x20#8 && t.reports == []) = true := by
  decide
theorem test_row19_rd2 :
    after (exec .rd2 { seq .rd2 0x20#8 false with ol := 0x3CF0#16 })
      (fun t => t.results == [.word 0x3CF0#16] && t.bs == .idle && t.icr == 0x00#8 && t.dip && t.pend == 0x10#8)
      = true := by decide
theorem test_row9_rd2_out_of_turn :
    after (exec .rd2 (seq .wr1 0x60#8 true))
      (fun t => t.reports == [.an1 .wr1 2#2] && t.icr == 0x60#8 && t.bs == .wr1) = true := by decide

/-! ### The register bridge (sections 1.1, 2.2, 2.4) -/

theorem test_wr1_scenario_1 :
    after (exec (.wr1 0x0C55#16) State.reset)
      (fun t => t.calls == [.ctlWriteReg 0#2 0xAA#8] && t.icr == 0x0C#8 && t.ol == 0x0000#16) = true := by decide

/-- `CLI`, `RSC` and a drive-control write of `0xD8` in one word: the reset runs first. -/
theorem test_wr1_combined :
    after (exec (.wr1 0x98D8#16) pendingState)
      (fun t => t.icr == 0x98#8 && t.dcr == 0xD8#8 && t.sel == .d0 && t.mask == 0x00#8 && t.mc == ⟨false, false⟩ &&
        t.ol == 0x0000#16 &&
        t.calls == resetCalls ++ [.ctlSoftReset, .drvSetSide .d0 false, .drvSetSide .d1 false,
          .drvSetMotor .d0 true, .drvSetMotor .d1 false, .ctlSetFloppy .d0]) = true := by decide

theorem test_ctl_fdcw :
    after (exec (.ctlFdcw ⟨false, false, false, false⟩ 1#2 0x00#8) State.reset)
      (fun t => t.calls == [.ctlWriteReg 1#2 0xFF#8] && t.icr == 0x0D#8) = true := by decide

/-- Row `0xF6` of section 2.4: both drives enabled. -/
theorem test_ctl_drvw_both :
    after (exec (.ctlDrvw ⟨false, false, false, false⟩ 0#2 0xF6#8) { State.reset with mc := ⟨true, true⟩ })
      (fun t => t.sel == .d1 && t.mc == ⟨false, false⟩ && t.reports == [.dg1 0xF6#8] && t.dcr == 0xF6#8) = true := by
  decide

/-- Row `0xDC` of section 2.4: `MC` shows in `OL[13]`. -/
theorem test_ctl_drvw_strobe :
    after (exec (.ctlDrvw ⟨false, false, false, false⟩ 0#2 0xDC#8) { State.reset with mc := ⟨true, true⟩ })
      (fun t => t.sel == .d0 && t.mc == ⟨false, true⟩ && t.ol == 0x2000#16 && t.reports == []) = true := by decide

theorem test_ctl_fdcr :
    after (exec (.ctlFdcr ⟨true, false, false, false⟩ 0#2 0x00#8) { pendingState with answers := [0x00#8] })
      (fun t => t.calls == [.ctlReadReg 0#2 0x00#8] && t.icr == 0x84#8 && t.ol == 0x24FF#16 && !t.dip &&
        t.mci == ⟨false, false⟩ && t.mc == ⟨true, true⟩ && t.pend == 0x00#8) = true := by decide

/-- A control write that starts a read: the status byte is composed and then lost (R250). -/
theorem test_ctl_drvr_starts_read :
    after (exec (.ctlDrvr ⟨false, false, true, false⟩ 0#2 0x00#8)
        { State.reset with drq := true, answers := [0xC3#8] })
      (fun t => t.bs == .rd1 && t.ol == 0x3CFF#16 && t.calls == [.ctlReadData 0xC3#8]) = true := by decide

/-- `RSC`, `DEN` and `DDW` with the request up: the reset runs first, the start test last. -/
theorem test_ctl_drvr_reset_then_start :
    after (exec (.ctlDrvr ⟨false, true, true, true⟩ 0#2 0x00#8) (seq .idle 0x00#8 true))
      (fun t => t.bs == .wr1 && t.icr == 0x70#8 && t.ol == 0x00FF#16 && t.calls == resetCalls ++ [.ctlSoftReset])
      = true := by decide

theorem test_rd1 :
    after (exec .rd1 { State.reset with ol := 0x02FE#16 })
      (fun t => t.results == [.word 0x02FE#16] && t.ol == 0x02FE#16) = true := by decide
theorem test_rd3 :
    after (exec .rd3 { State.reset with cfg := { Config.standard with idx3ReadValue := 0xBEEF#16 } })
      (fun t => t.results == [.word 0xBEEF#16] && t.reports == []) = true := by decide
theorem test_wr3 :
    after (exec (.wr3 0xBEEF#16) State.reset) (fun t => t.reports == [] && t.calls == [] && t.ol == 0#16) = true := by
  decide

/-! ### Lines, interrupts, keyboard, reset (sections 2.3, 2.5 to 2.7) -/

theorem test_status_all : statusCompose
    { State.reset with firq := true, dip := true, mc := ⟨true, false⟩, wps := ⟨false, true⟩, rdy := ⟨true, false⟩ }
    = 0b11010101#8 := by decide
theorem test_firq_line_in_aggregator :
    after (exec (.firqLine true)
        { State.reset with cfg := { Config.standard with fdcIrqInAgg := true }, mask := 0x10#8 })
      (fun t => t.firq && t.pend == 0x10#8 && t.irq) = true := by decide
theorem test_firq_line_default :
    after (exec (.firqLine true) State.reset) (fun t => t.firq && t.pend == 0x00#8) = true := by decide
theorem test_rdy_line :
    after (exec (.rdyLine .d1 true) State.reset) (fun t => t.rdy == ⟨false, true⟩ && t.mc == ⟨false, false⟩) = true := by
  decide
theorem test_wp_line_falls :
    after (exec (.wpLine .d0 false) { State.reset with sel := .d0 }) (fun t => t.wps == ⟨true, false⟩) = true := by
  decide
theorem test_wp_line_not_selected :
    after (exec (.wpLine .d1 false) { State.reset with sel := .d0 }) (fun t => t.wps == ⟨false, false⟩) = true := by
  decide
theorem test_mchg :
    after (exec (.mchg .d1) State.reset)
      (fun t => t.mc == ⟨false, true⟩ && t.mci == ⟨false, true⟩ && t.pend == 0x10#8) = true := by decide
theorem test_setmask :
    after (exec (.setmask 2#3 true) { State.reset with pend := 0x04#8 }) (fun t => t.mask == 0x04#8 && t.irq) = true := by
  decide
theorem test_setpend :
    after (exec (.setpend 2#3 false) { State.reset with pend := 0x84#8, mask := 0x04#8 })
      (fun t => t.pend == 0x80#8 && !t.irq) = true := by decide
theorem test_setpend_owned : refusedWith (exec (.setpend 4#3 true) State.reset) (.pendBitOwned 4#3) = true := by decide

/-- From `KCUR = 7`, position 10 is reached before position 5. -/
theorem test_ktick_cursor_order :
    after (exec (.ktick (keys [5#7, 10#7])) { State.reset with kcur := 7#7 })
      (fun t => t.kcur == 10#7 && t.kprev == keys [10#7] && t.kprs && t.kevt && t.pend == 0x01#8) = true := by
  decide +kernel

/-- A release at the cursor itself is found at the 128th step. -/
theorem test_ktick_once_round :
    after (exec (.ktick 0#128) { State.reset with kprev := keys [9#7], kcur := 9#7 })
      (fun t => t.kcur == 9#7 && t.kprev == 0#128 && !t.kprs && t.kevt && t.pend == 0x01#8) = true := by
  decide +kernel
theorem test_kack :
    after (exec .kack { State.reset with kcur := 127#7, kprs := true, kevt := true, pend := 0x85#8 })
      (fun t => t.results == [.key 127#7 true] && !t.kevt && t.pend == 0x84#8 && t.kcur == 127#7) = true := by decide

/-- Section 2.7, the first row with `FDC_IRQ_IN_AGG` (cut to the elements that could survive). -/
theorem test_reset :
    after (exec .reset
        { pendingState with
          bs := .wr2, dcr := 0xD8#8, sel := .d0, wl := 0x5678#16, drq := true, firq := true, rdy := ⟨true, true⟩
          cfg := { Config.standard with fdcIrqInAgg := true } })
      (fun t => t.bs == .idle && t.dcr == 0xFF#8 && t.sel == .none && t.mask == 0x00#8 && t.pend == 0x10#8 && t.drq &&
        t.firq && t.rdy == ⟨true, true⟩ && t.mc == ⟨false, false⟩ && t.calls == resetCalls) = true := by decide

/-! ### Witnesses: values that meet the hypotheses of each obligation that has any -/

theorem test_witness_EncodeThenDecodeIsIdentity : IcrLayout.standard.Wf := by decide
theorem test_witness_DecodeThenEncodeIsIdentity :
    IcrLayout.standard.Wf ∧ decode IcrLayout.standard ⟨.bus, [0x04#8, 0x34#8, 0x12#8]⟩ = .ok (.wr0 0x1234#16) := by
  decide
theorem test_witness_StepRunsDecodedOperation :
    ({ State.reset with inbox := [⟨.evt, [0x11#8]⟩] } : State).inbox = ⟨.evt, [0x11#8]⟩ :: [] ∧
    decode State.reset.cfg.layoutIcr ⟨.evt, [0x11#8]⟩ = .ok (.drqLine true) ∧ State.reset.inbox = [] :=
  ⟨rfl, rfl, rfl⟩
theorem test_witness_NarrowWriteRefused :
    ([] : List Byte).length < 2 ∧ [0x55#8].length < 2 ∧
    ({ State.reset with inbox := [⟨.bus, [1#6 ++ 1#2, 0x55#8]⟩] } : State).inbox
      = ⟨.bus, (1#6 ++ 1#2) :: [0x55#8]⟩ :: [] := by decide
theorem test_witness_EveryOperationCompletes : WellFormed .kack = true ∧ WellFormed (.setpend 7#3 true) = true := by decide
theorem test_witness_WriteIndexZero : (seq .wr1 0x60#8 true).bs = .wr1 ∧ (seq .wr2 0x60#8 true).bs ≠ .wr1 := by decide
theorem test_witness_WriteIndexTwo :
    (seq .wr1 0x60#8 true).bs = .wr1 ∧ (seq .idle 0x60#8 true).bs ≠ .wr1 ∧
    ({ seq .wr1 0x60#8 true with mask := 0x10#8 } : State).mask.getLsbD 4 = true := by decide
theorem test_witness_ReadIndexZero : (seq .rd2 0x20#8 true).bs = .rd2 ∧ (seq .rd1 0x20#8 true).bs ≠ .rd2 := by decide
theorem test_witness_ReadIndexTwo :
    (seq .rd2 0x20#8 true).bs = .rd2 ∧ (seq .idle 0x20#8 true).bs ≠ .rd2 ∧
    ({ seq .rd2 0x20#8 true with mask := 0x10#8 } : State).mask.getLsbD 4 = true := by decide

/-- One state for each clause: start of a write, start of a read, disabled, `WR2`, `RD1`, `WR1`, `RD2`. -/
theorem test_witness_DataRequestLine :
    ((seq .idle 0x60#8 false).drq = false ∧ (seq .idle 0x60#8 false).bs = .idle ∧
      (seq .idle 0x60#8 false).icr.getLsbD IcrLayout.standard.den = true ∧
      (seq .idle 0x60#8 false).icr.getLsbD IcrLayout.standard.ddw = true) ∧
    ((seq .idle 0x20#8 false).icr.getLsbD IcrLayout.standard.den = true ∧
      (seq .idle 0x20#8 false).icr.getLsbD IcrLayout.standard.ddw = false) ∧
    (seq .idle 0x40#8 false).icr.getLsbD IcrLayout.standard.den = false ∧
    ((seq .wr2 0x60#8 false).drq = false ∧ (seq .wr2 0x60#8 false).bs = .wr2) ∧
    ((seq .rd1 0x20#8 false).drq = false ∧ (seq .rd1 0x20#8 false).bs = .rd1) ∧
    ((seq .wr1 0x60#8 false).drq = false ∧ (seq .wr1 0x60#8 false).bs = .wr1) ∧
    ((seq .rd2 0x20#8 false).drq = false ∧ (seq .rd2 0x20#8 false).bs = .rd2) := by decide
theorem test_witness_OneTransitionOrOneAnomaly :
    isDmaAccess (.wr0 0x1234#16) = true ∧ isDmaAccess .rd2 = true ∧ (seq .rd1 0x20#8 false).drq = false := by decide
theorem test_witness_OnlyListedStimuliMoveTheSequencer :
    resetsBlock IcrLayout.standard .rd0 = false ∧
    exec .rd0 (seq .rd2 0x20#8 true) = .next { seq .idle 0x20#8 true with results := [.word 0#16] } ∧
    ({ seq .idle 0x20#8 true with results := [.word 0#16] } : State).bs ≠ (seq .rd2 0x20#8 true).bs :=
  ⟨by decide, rfl, by decide⟩
theorem test_witness_ControlWriteDoesNotAbortTransfer :
    State.reset.cfg.layoutIcr.Wf ∧ controlMods IcrLayout.standard (.wr1 0x0000#16) = some ⟨false, false, false, false⟩ ∧
    (seq .wr2 0x60#8 false).bs ≠ .idle := by decide
theorem test_witness_WriteRoundTrip :
    (seq .idle 0x60#8 false).bs = .idle ∧ (seq .idle 0x60#8 false).drq = false ∧
    (seq .idle 0x60#8 false).icr.getLsbD IcrLayout.standard.den = true ∧
    (seq .idle 0x60#8 false).icr.getLsbD IcrLayout.standard.ddw = true := by decide
theorem test_witness_ReadRoundTrip :
    (seq .idle 0x20#8 false).bs = .idle ∧ (seq .idle 0x20#8 false).drq = false ∧
    (seq .idle 0x20#8 false).icr.getLsbD IcrLayout.standard.den = true ∧
    (seq .idle 0x20#8 false).icr.getLsbD IcrLayout.standard.ddw = false := by decide

/-- `StepOne` without and with `RSC`, from a state in which no transfer starts (`State.reset`), one in which a write
starts and one in which a read starts (the request is up). -/
theorem test_witness_ControlWriteToController :
    State.reset.cfg.layoutIcr.Wf ∧ StepOne ⟨true, true, true, false⟩ State.reset State.reset ∧
    ¬ Starts ⟨true, true, true, false⟩ State.reset ∧ Starts ⟨false, true, true, false⟩ (seq .idle 0#8 true) ∧
    StepOne ⟨false, false, false, true⟩ State.reset { State.reset with calls := resetCalls ++ [.ctlSoftReset] } :=
  ⟨by decide, .inl ⟨rfl, rfl⟩, by decide, by decide, .inr ⟨rfl, { State.reset with calls := resetCalls }, rfl, rfl⟩⟩
theorem test_witness_ControlReadFromController :
    State.reset.cfg.layoutIcr.Wf ∧ StepOne ⟨false, false, true, false⟩ (seq .idle 0#8 true) (seq .idle 0#8 true) ∧
    Starts ⟨false, false, true, false⟩ (seq .idle 0#8 true) ∧
    StepOne ⟨false, false, true, true⟩ (seq .wr2 0#8 true)
      { seq .idle 0#8 true with calls := resetCalls ++ [.ctlSoftReset] } :=
  ⟨by decide, .inl ⟨rfl, rfl⟩, by decide, .inr ⟨rfl, { seq .idle 0#8 true with calls := resetCalls }, rfl, rfl⟩⟩
theorem test_witness_ControlReadBackDrive :
    State.reset.cfg.layoutIcr.Wf ∧ StepOne ⟨true, false, false, false⟩ (seq .idle 0#8 true) (seq .idle 0#8 true) ∧
    ¬ Starts ⟨true, false, false, false⟩ (seq .idle 0#8 true) :=
  ⟨by decide, .inl ⟨rfl, rfl⟩, by decide⟩

/-- The three selections: `0x00` and `0xF7` (drive 1), `0xFE` (drive 0), `0xFF` (none). -/
theorem test_witness_ControlWriteToDriveLatch :
    State.reset.cfg.layoutIcr.Wf ∧ StepOne ⟨false, false, false, false⟩ State.reset State.reset ∧
    (0x00#8).getLsbD DcrLayout.standard.drv1 = false ∧ (0xF7#8).getLsbD DcrLayout.standard.drv1 = false ∧
    ((0xFE#8).getLsbD DcrLayout.standard.drv1 = true ∧ (0xFE#8).getLsbD DcrLayout.standard.drv0 = false) ∧
    ((0xFF#8).getLsbD DcrLayout.standard.drv1 = true ∧ (0xFF#8).getLsbD DcrLayout.standard.drv0 = true) :=
  ⟨by decide, .inl ⟨rfl, rfl⟩, by decide⟩
theorem test_witness_ControlWordRunsItsSubOperation : State.reset.cfg.layoutIcr.Wf := by decide
theorem test_witness_ControllerResetThenRest :
    State.reset.cfg.layoutIcr.Wf ∧ (0x98D8#16).getLsbD (8 + State.reset.cfg.layoutIcr.rsc) = true := by decide
theorem test_witness_SoleResetWord :
    State.reset.cfg.layoutIcr = IcrLayout.standard ∧ State.reset.cfg.layoutStatus = StatusLayout.standard := by decide
theorem test_witness_StatusByte :
    State.reset.cfg.layoutStatus.Wf ∧ State.reset.cfg.layoutStatus = StatusLayout.standard := by decide
theorem test_witness_WriteProtectLine :
    ({ State.reset with sel := .d0 } : State).sel = .d0 ∧ State.reset.sel ≠ .d0 ∧
    ({ State.reset with sel := .d1 } : State).sel = .d1 ∧ ({ State.reset with sel := .d0 } : State).sel ≠ .d1 := by decide
theorem test_witness_BothDrivesEnabled :
    (0xF6#8).getLsbD State.reset.cfg.layoutDcr.drv1 = false ∧ (0xF6#8).getLsbD State.reset.cfg.layoutDcr.drv0 = false := by
  decide
theorem test_witness_SetPendingBit :
    (1#3 ≠ 0#3 ∧ 1#3 ≠ 4#3) ∧ (3#3 ≠ 0#3 ∧ 3#3 ≠ 4#3) ∧ (5#3 ≠ 0#3 ∧ 5#3 ≠ 4#3) ∧ (7#3 ≠ 0#3 ∧ 7#3 ≠ 4#3) := by decide
theorem test_witness_OnlyOwnedPendingBitsRefused :
    ¬ ∃ t, exec (.setpend 0#3 true) State.reset = .next t := fun ⟨_, h⟩ => by cases h
/-- A `SETPEND` that completes and changes an external bit: it meets both clauses. -/
theorem test_witness_PendingBitOwnership :
    exec (.setpend 1#3 true) State.reset = .next { State.reset with pend := 0x02#8 } ∧
    ({ State.reset with pend := 0x02#8 } : State).pend.getLsbD 1 ≠ State.reset.pend.getLsbD 1 ∧ 1 ≠ 0 ∧ 1 ≠ 4 :=
  ⟨rfl, by decide⟩
theorem test_witness_MaskOwnership :
    exec (.setmask 7#3 true) State.reset = .next { State.reset with mask := 0x80#8 } ∧
    ({ State.reset with mask := 0x80#8 } : State).mask.getLsbD 7 ≠ State.reset.mask.getLsbD 7 :=
  ⟨rfl, by decide⟩

/-- A held event; a matrix with no difference; a difference at the first step (`n` = 1) and at the last
(`n` = 128, the cursor's own position), with no earlier one. -/
theorem test_witness_TickTakesFirstDifference :
    ({ State.reset with kevt := true } : State).kevt = true ∧ State.reset.kevt = false ∧
    (∀ p, p < 128 → (0#128).getLsbD p = State.reset.kprev.getLsbD p) ∧
    (keys [1#7]).getLsbD ((State.reset.kcur.toNat + 1) % 128) ≠
      State.reset.kprev.getLsbD ((State.reset.kcur.toNat + 1) % 128) ∧
    (∀ j, j < 128 → 1 ≤ j → (keys [0#7]).getLsbD ((State.reset.kcur.toNat + j) % 128) =
      State.reset.kprev.getLsbD ((State.reset.kcur.toNat + j) % 128)) ∧
    (keys [0#7]).getLsbD ((State.reset.kcur.toNat + 128) % 128) ≠
      State.reset.kprev.getLsbD ((State.reset.kcur.toNat + 128) % 128) := by
  decide +kernel
theorem test_witness_EachTransitionReportedOnce :
    State.reset.kevt = false ∧
    ∀ k, k < 128 → ((keys [37#7]).getLsbD k ≠ State.reset.kprev.getLsbD k ↔ k = (37#7).toNat) := by
  decide +kernel
theorem test_witness_KeyboardOwnership :
    resetsBlock IcrLayout.standard .kack = false ∧
    exec .kack { State.reset with kevt := true } = .next { State.reset with results := [.key 0#7 false] } :=
  ⟨by decide, rfl⟩
theorem test_witness_StepKeepsInvariant :
    State.reset.Inv ∧ step State.reset = .next State.reset := ⟨by decide, rfl⟩

/-- Set by `MCHG(0)` and by `MCHG(1)`; cleared by a drive-control write of `0xFF`, which strobes both. -/
theorem test_witness_MediaChangedOwnership :
    after (exec (.mchg .d0) State.reset) (fun t => !State.reset.mc.d0 && t.mc.d0) &&
    after (exec (.mchg .d1) State.reset) (fun t => !State.reset.mc.d1 && t.mc.d1) &&
    after (exec (.ctlDrvw ⟨false, false, false, false⟩ 0#2 0xFF#8) pendingState)
      (fun t => pendingState.mc.d0 && !t.mc.d0 && pendingState.mc.d1 && !t.mc.d1) = true := by decide

/-- `DIP` set by `RD2` in turn, `MCI` set by `MCHG`, all cleared by `CLI`. -/
theorem test_witness_InterruptConditionOwnership :
    after (exec .rd2 (seq .rd2 0x20#8 false)) (fun t => t.dip) &&
    after (exec (.mchg .d0) State.reset) (fun t => t.mci.d0) &&
    after (exec (.mchg .d1) State.reset) (fun t => t.mci.d1) &&
    after (exec (.wr1 0x8000#16) { pendingState with mci := ⟨true, true⟩ })
      (fun t => !t.dip && !t.mci.d0 && !t.mci.d1) = true := by decide
theorem test_witness_WriteProtectOwnership :
    resetsBlock IcrLayout.standard (.wpLine .d1 false) = false ∧
    exec (.wpLine .d1 false) { State.reset with sel := .d1 } =
      .next { State.reset with sel := .d1, wps := ⟨false, true⟩ } := ⟨by decide, rfl⟩
theorem test_witness_MirrorOwnership :
    exec (.firqLine true) State.reset = .next { State.reset with firq := true } ∧
    exec (.rdyLine .d0 true) State.reset = .next { State.reset with rdy := ⟨true, false⟩ } ∧
    exec (.rdyLine .d1 true) State.reset = .next { State.reset with rdy := ⟨false, true⟩ } ∧
    exec (.drqLine true) (seq .idle 0x60#8 false) = .next (seq .wr1 0x60#8 true) := ⟨rfl, rfl, rfl, rfl⟩

/-- One operation with a next state, which is all that `ReportsDoNotSteer`, `AtMostOneReport`,
`WriteLatchHighByteUnread` and `OutputStreamsOnlyGrow` ask, and a control write for the clause of
`AtMostOneReport`. -/
theorem test_witness_ReportsDoNotSteer_and_others :
    exec .rd0 State.reset = .next { State.reset with results := [.word 0#16], reports := [.an1 .idle 0#2] } ∧
    isControlWrite IcrLayout.standard (.wr1 0x0000#16) = true := ⟨rfl, by decide⟩

/-- Two control bytes that agree on `DEN` and `DDW` and on nothing else, and an operation with a next state. -/
theorem test_witness_StoredControlBitsHaveNoEffect :
    (0x9F#8).getLsbD State.reset.cfg.layoutIcr.den = State.reset.icr.getLsbD State.reset.cfg.layoutIcr.den ∧
    (0x9F#8).getLsbD State.reset.cfg.layoutIcr.ddw = State.reset.icr.getLsbD State.reset.cfg.layoutIcr.ddw ∧
    exec (.wr3 0xBEEF#16) State.reset = .next State.reset := ⟨by decide, by decide, rfl⟩

end Sys2Proof.Tests
end

section
/-! The DMA transfer sequencer (spec/40_dma_sequencer.md): what each of its operations answers, one equation per
branch, and the statements about `WR0`, `WR2`, `RD0`, `RD2` and `DRQ_LINE`. -/

namespace Sys2Proof.Machine

/-! ### The output lines -/

/-- The sequencer requests the CPU in the two states that wait for it (R107). -/
theorem dmar_of_cpu_turn {s : State} (h : s.bs = .wr1 ∨ s.bs = .rd2) : s.dmar = true := by
  rcases h with h | h <;> simp [State.dmar, h]

/-- One pending bit that the mask lets through raises the combined request (R173). -/
theorem irq_of_unmasked_pending {s : State} (k : Nat) (hmask : s.mask.getLsbD k = true)
    (hpend : s.pend.getLsbD k = true) : s.irq = true := by
  have hbit : (s.mask &&& s.pend).getLsbD k = true := by
    rw [BitVec.getLsbD_and, hmask, hpend, Bool.and_self]
  refine bne_iff_ne.mpr fun hzero => ?_
  rw [hzero, BitVec.getLsbD_zero] at hbit
  exact Bool.false_ne_true hbit

/-! ### The terminal count (R104) -/

theorem terminalCount_icr_bit (s : State) (k : Nat) :
    (terminalCount s).icr.getLsbD k = if k = s.cfg.layoutIcr.den.val then false else s.icr.getLsbD k := by
  simp only [terminalCount_eq, getLsbD_withBit, s.cfg.layoutIcr.den.isLt, and_true]

theorem terminalCount_pend_bit (s : State) (k : Nat) :
    (terminalCount s).pend.getLsbD k = if k = 4 then true else s.pend.getLsbD k := by
  simp [terminalCount_eq, getLsbD_withBit]

/-- The terminal count interrupts the CPU when the floppy bit is enabled in the mask. -/
theorem terminalCount_irq {s : State} (h : s.mask.getLsbD 4 = true) : (terminalCount s).irq = true :=
  irq_of_unmasked_pending 4 h (terminalCount_pend_bit s 4)

/-! ### The CPU's accesses at the DMA indices, in turn and out of turn (R93 to R96, R105) -/

theorem exec_wr0_of_wr1 {s : State} (w : Word) (h : s.bs = .wr1) :
    exec (.wr0 w) s = .next (acceptWord s w) := if_pos h

theorem exec_wr0_of_ne_wr1 {s : State} (w : Word) (h : s.bs ≠ .wr1) :
    exec (.wr0 w) s = .next (s.report (.an2 s.bs 0#2)) := if_neg h

theorem exec_wr2_of_wr1 {s : State} (w : Word) (h : s.bs = .wr1) :
    exec (.wr2 w) s = .next (terminalCount (acceptWord s w)) := if_pos h

theorem exec_wr2_of_ne_wr1 {s : State} (w : Word) (h : s.bs ≠ .wr1) :
    exec (.wr2 w) s = .next (s.report (.an2 s.bs 2#2)) := if_neg h

theorem exec_rd0_of_rd2 {s : State} (h : s.bs = .rd2) :
    exec .rd0 s = .next { s.give (.word s.ol) with bs := .idle } := if_pos h

theorem exec_rd0_of_ne_rd2 {s : State} (h : s.bs ≠ .rd2) :
    exec .rd0 s = .next ((s.give (.word s.ol)).report (.an1 s.bs 0#2)) := if_neg h

theorem exec_rd2_of_rd2 {s : State} (h : s.bs = .rd2) :
    exec .rd2 s = .next (terminalCount { s.give (.word s.ol) with bs := .idle }) := if_pos h

theorem exec_rd2_of_ne_rd2 {s : State} (h : s.bs ≠ .rd2) :
    exec .rd2 s = .next ((s.give (.word s.ol)).report (.an1 s.bs 2#2)) := if_neg h

/-! ### A data-request pulse, by state (R97) -/

/-- A pulse in `Idle` with `DEN` and `DDW` set asks the CPU for the first word (R98). -/
theorem dataRequestPulse_of_idle_write {s : State} (hbs : s.bs = .idle) (hdrq : s.drq = true)
    (hden : s.den = true) (hddw : s.ddw = true) : dataRequestPulse s = { s with bs := .wr1 } := by
  simp [dataRequestPulse, dmaEvaluate, hbs, hdrq, hden, hddw]

/-- A pulse in `Idle` with `DEN` set and `DDW` clear takes the first byte (R101). -/
theorem dataRequestPulse_of_idle_read {s : State} (hbs : s.bs = .idle) (hdrq : s.drq = true)
    (hden : s.den = true) (hddw : s.ddw = false) : dataRequestPulse s = startRead s := by
  simp [dataRequestPulse, dmaEvaluate, hbs, hdrq, hden, hddw]

theorem dataRequestPulse_of_idle_disabled {s : State} (hbs : s.bs = .idle) (hden : s.den = false) :
    dataRequestPulse s = s.report (.an3 .idle) := by
  simp [dataRequestPulse, hbs, hden]

theorem dataRequestPulse_of_wr2 {s : State} (hbs : s.bs = .wr2) : dataRequestPulse s = sendLowByte s := by
  simp [dataRequestPulse, hbs]

theorem dataRequestPulse_of_rd1 {s : State} (hbs : s.bs = .rd1) : dataRequestPulse s = readLowByte s := by
  simp [dataRequestPulse, hbs]

/-- While the CPU's turn is pending a pulse is only reported (R106). -/
theorem dataRequestPulse_of_cpu_turn {s : State} (hbs : s.bs = .wr1 ∨ s.bs = .rd2) :
    dataRequestPulse s = s.report (.an4 s.bs) := by
  rcases hbs with hbs | hbs <;> simp [dataRequestPulse, hbs]

/-! ### The data-request line (R97) -/

/-- The held level is no transition. -/
theorem exec_drqLine_held (s : State) : exec (.drqLine s.drq) s = .next s := by
  refine if_neg fun ⟨hlow, hhigh⟩ => ?_
  exact Bool.false_ne_true (hlow.symm.trans hhigh)

/-- Level 0 is never a rise. -/
theorem exec_drqLine_false (s : State) : exec (.drqLine false) s = .next { s with drq := false } :=
  if_neg fun ⟨_, hrise⟩ => Bool.false_ne_true hrise

/-- The pulse of a rise sees the mirror already up. -/
theorem exec_drqLine_rise {s t : State} (h : s.drq = false)
    (hpulse : dataRequestPulse { s with drq := true } = t) : exec (.drqLine true) s = .next t :=
  hpulse ▸ if_pos ⟨h, rfl⟩

/-- The mirror of the line has no part in which answer of the controller is used up. -/
theorem dropAnswer_setDrq (s : State) (v : Bool) :
    ({ s with drq := v } : State).dropAnswer = { s.dropAnswer with drq := v } := by
  unfold State.dropAnswer
  cases s.answers <;> rfl

/-! ### The statements -/

/-- Settles O11: a repeat and a fall are no rise, and a rise is the pulse of its state over the raised mirror. -/
theorem dataRequestLine : Obligations.DataRequestLine := by
  intro s
  refine ⟨exec_drqLine_held s, exec_drqLine_false s, ?idleWrite, ?idleRead, ?idleDisabled, ?wr2, ?rd1, ?cpuTurn⟩
  case idleWrite =>
    intro hdrq hbs hden hddw
    exact exec_drqLine_rise hdrq (dataRequestPulse_of_idle_write hbs rfl hden hddw)
  case idleRead =>
    intro hdrq hbs hden hddw
    refine exec_drqLine_rise hdrq ?_
    rw [dataRequestPulse_of_idle_read (s := { s with drq := true }) hbs rfl hden hddw, startRead_eq,
      dropAnswer_setDrq]
    rfl
  case idleDisabled =>
    intro hdrq hbs hden
    exact exec_drqLine_rise hdrq (dataRequestPulse_of_idle_disabled hbs hden)
  case wr2 =>
    intro hdrq hbs
    exact exec_drqLine_rise hdrq (dataRequestPulse_of_wr2 hbs)
  case rd1 =>
    intro hdrq hbs
    refine exec_drqLine_rise hdrq ?_
    rw [dataRequestPulse_of_rd1 (s := { s with drq := true }) hbs, readLowByte_eq, dropAnswer_setDrq]
    rfl
  case cpuTurn =>
    intro hdrq hbs
    exact exec_drqLine_rise hdrq (dataRequestPulse_of_cpu_turn hbs)

/-- Settles O7: in `WR1` the word is accepted, elsewhere it is only reported. -/
theorem writeIndexZero : Obligations.WriteIndexZero := by
  intro w s
  refine ⟨fun hturn => ?_, fun hturn => exec_wr0_of_ne_wr1 w hturn⟩
  exact ⟨dmar_of_cpu_turn (.inl hturn), acceptWord s w, exec_wr0_of_wr1 w hturn, rfl, acceptWord_eq s w⟩

/-- Settles O8: in `WR1` the terminal count follows the accepted word, elsewhere the access is only reported. -/
theorem writeIndexTwo : Obligations.WriteIndexTwo := by
  intro w s
  refine ⟨fun hturn => ?_, fun hturn => exec_wr2_of_ne_wr1 w hturn⟩
  refine ⟨dmar_of_cpu_turn (.inl hturn), terminalCount (acceptWord s w), exec_wr2_of_wr1 w hturn, rfl,
    fun hmask => terminalCount_irq hmask, terminalCount_icr_bit _, terminalCount_pend_bit _, ?_⟩
  rw [terminalCount_eq, acceptWord_eq]
  rfl

/-- Settles O9: `OL` is returned in every state, and only in `RD2` does the sequencer move. -/
theorem readIndexZero : Obligations.ReadIndexZero := by
  intro s
  refine ⟨fun hturn => ?_, fun hturn => exec_rd0_of_ne_rd2 hturn⟩
  exact ⟨dmar_of_cpu_turn (.inr hturn), _, exec_rd0_of_rd2 hturn, rfl, rfl⟩

/-- Settles O10: in `RD2` the terminal count follows the end of the transfer, elsewhere the read is only reported. -/
theorem readIndexTwo : Obligations.ReadIndexTwo := by
  intro s
  refine ⟨fun hturn => ?_, fun hturn => exec_rd2_of_ne_rd2 hturn⟩
  refine ⟨dmar_of_cpu_turn (.inr hturn), _, exec_rd2_of_rd2 hturn, rfl,
    fun hmask => terminalCount_irq hmask, terminalCount_icr_bit _, terminalCount_pend_bit _, ?_⟩
  rw [terminalCount_eq]
  rfl

end Sys2Proof.Machine
end

section
/-! The register bridge (spec/41_register_bridge.md): what the four sub-operations of a control write leave over the
state its step 1 leaves, and the statements about `CTL.FDCW`, `CTL.FDCR`, `CTL.DRVR`, `CTL.DRVW`, `RD1`, `RD3`, `WR3`
and `IDX_LINE`. -/

namespace Sys2Proof.Machine

/-! ### The answers of the controller -/

/-- The two states hold the same answers of the controller, those still to be made up included (R7). -/
structure SameAnswers (s t : State) : Prop where
  answers : s.answers = t.answers
  nfree : s.nfree = t.nfree

theorem SameAnswers.nextAnswer {s t : State} (h : SameAnswers s t) : s.nextAnswer = t.nextAnswer := by
  unfold State.nextAnswer
  rw [h.answers, h.nfree]

theorem SameAnswers.dropAnswer {s t : State} (h : SameAnswers s t) : SameAnswers s.dropAnswer t.dropAnswer := by
  obtain ⟨hanswers, hnfree⟩ := h
  unfold State.dropAnswer
  cases ht : t.answers with
  | nil =>
    rw [hanswers.trans ht]
    exact ⟨rfl, congrArg (· + 1) hnfree⟩
  | cons b bs =>
    rw [hanswers.trans ht]
    exact ⟨rfl, hnfree⟩

theorem SameAnswers.trans {s t u : State} (hst : SameAnswers s t) (htu : SameAnswers t u) : SameAnswers s u :=
  ⟨hst.answers.trans htu.answers, hst.nfree.trans htu.nfree⟩

/-- The end of a control write depends on the answers alone of the state a starting read takes its answer from. -/
theorem ControlWriteEnd.of_sameAnswers {m : Mods} {s u v t : State} {calls : List Call} {low : Byte}
    (h : ControlWriteEnd m s u t calls low) (huv : SameAnswers u v) : ControlWriteEnd m s v t calls low where
  ol_low := h.ol_low
  no_start := by simpa only [huv.answers, huv.nfree] using h.no_start
  start_write := by simpa only [huv.answers, huv.nfree] using h.start_write
  start_read := by
    simpa only [huv.nextAnswer, huv.dropAnswer.answers, huv.dropAnswer.nfree] using h.start_read

/-! ### Steps 1 to 3 -/

/-- Step 1 as the statements have it is step 1 as the model runs it (R121, R127). -/
theorem StepOne.eq_openBase {m : Mods} {s r : State} (h : StepOne m s r) : r = openBase s m.rsc := by
  rcases h with ⟨hrsc, rfl⟩ | ⟨hrsc, u, hu, rfl⟩
  · rw [hrsc, openBase_false]
  · obtain rfl : resetAll s = u := by injection hu
    rw [hrsc]
    rfl

theorem openBase_cfg (s : State) (rsc : Bool) : (openBase s rsc).cfg = s.cfg := by
  obtain ⟨-, -, -, hcfg, -⟩ := openBase_kept s rsc
  exact hcfg

@[simp] theorem controlWriteOpen_bs (s : State) (rsc cli : Bool) (c : Byte) :
    (controlWriteOpen s rsc cli c).bs = (openBase s rsc).bs := by rw [controlWriteOpen_base]
@[simp] theorem controlWriteOpen_icr (s : State) (rsc cli : Bool) (c : Byte) :
    (controlWriteOpen s rsc cli c).icr = c := by rw [controlWriteOpen_base]
@[simp] theorem controlWriteOpen_dcr (s : State) (rsc cli : Bool) (c : Byte) :
    (controlWriteOpen s rsc cli c).dcr = (openBase s rsc).dcr := by rw [controlWriteOpen_base]
@[simp] theorem controlWriteOpen_ol (s : State) (rsc cli : Bool) (c : Byte) :
    (controlWriteOpen s rsc cli c).ol = (openBase s rsc).ol := by rw [controlWriteOpen_base]
@[simp] theorem controlWriteOpen_mc (s : State) (rsc cli : Bool) (c : Byte) :
    (controlWriteOpen s rsc cli c).mc = (openBase s rsc).mc := by rw [controlWriteOpen_base]
@[simp] theorem controlWriteOpen_sel (s : State) (rsc cli : Bool) (c : Byte) :
    (controlWriteOpen s rsc cli c).sel = (openBase s rsc).sel := by rw [controlWriteOpen_base]
@[simp] theorem controlWriteOpen_drq (s : State) (rsc cli : Bool) (c : Byte) :
    (controlWriteOpen s rsc cli c).drq = (openBase s rsc).drq := by rw [controlWriteOpen_base]
@[simp] theorem controlWriteOpen_cfg (s : State) (rsc cli : Bool) (c : Byte) :
    (controlWriteOpen s rsc cli c).cfg = s.cfg := by rw [controlWriteOpen_base]; exact openBase_cfg s rsc
@[simp] theorem controlWriteOpen_calls (s : State) (rsc cli : Bool) (c : Byte) :
    (controlWriteOpen s rsc cli c).calls = (openBase s rsc).calls := by rw [controlWriteOpen_base]
@[simp] theorem controlWriteOpen_reports (s : State) (rsc cli : Bool) (c : Byte) :
    (controlWriteOpen s rsc cli c).reports = (openBase s rsc).reports := by rw [controlWriteOpen_base]

theorem controlWriteOpen_sameAnswers (s : State) (rsc cli : Bool) (c : Byte) :
    SameAnswers (controlWriteOpen s rsc cli c) (openBase s rsc) := by
  rw [controlWriteOpen_base]
  exact ⟨rfl, rfl⟩

/-! ### The whole control write, over the state step 1 leaves -/

/-- The status byte that steps 5 to 7 latch is still the one the state they leave composes. -/
theorem statusCompose_controlWriteClose (v : State) : statusCompose (controlWriteClose v) = statusCompose v := by
  have hclose := controlWriteClose_spec v
  exact statusCompose_congr (congrArg Config.layoutStatus hclose.cfg) hclose.firq hclose.dip hclose.mc hclose.wps
    hclose.rdy

/-- Steps 5 to 7 after a step 4 that left `BS`, `DRQ` and the written `DEN` and `DDW` alone (R128, R129). -/
theorem controlWriteClose_end {m : Mods} {r mid : State} (hbs : mid.bs = r.bs) (hdrq : mid.drq = r.drq)
    (hmods : modsOf mid.cfg.layoutIcr mid.icr = m) :
    ControlWriteEnd m r mid (controlWriteClose mid) mid.calls (loByte mid.ol) := by
  have hclose := controlWriteClose_spec mid
  have hden : mid.den = m.den := congrArg Mods.den hmods
  have hddw : mid.ddw = m.ddw := congrArg Mods.ddw hmods
  have hstarts : Starts m r ↔ (mid.bs = .idle ∧ mid.den = true ∧ mid.drq = true) := by
    rw [Starts, hbs, hden, hdrq]
  have hstatus := statusCompose_controlWriteClose mid
  exact
    { ol_low := hclose.ol_low
      no_start := fun hn => by rw [hstatus, ← hbs]; exact hclose.no_start (mt hstarts.mpr hn)
      start_write := fun hs hw => by rw [hstatus]; exact hclose.start_write (hstarts.mp hs) (hddw.trans hw)
      start_read := fun hs hr => hclose.start_read (hstarts.mp hs) (hddw.trans hr) }

/-- What every control write does, once the control byte it stored is known. -/
theorem ControlWriteSpec.shared {i : Instr} {s t : State} {m : Mods} {adw sct : Bool} {ra : BitVec 2}
    (h : ControlWriteSpec i s m t) (hwf : s.cfg.layoutIcr.Wf)
    (hicr : t.icr = ctlByte s.cfg.layoutIcr m adw sct ra) :
    ControlWriteShared m adw sct ra (openBase s m.rsc) t := by
  obtain ⟨hdrq, hfirq, hrdy, hcfg, hinbox, -, hresults, -⟩ := openBase_kept s m.rsc
  exact
    { icr_mods := by rw [hcfg, hicr, modsOf_ctlByte hwf]
      icr_adw := by rw [hcfg, hicr]; exact adw_ctlByte hwf m adw sct ra
      icr_sct := by rw [hcfg, hicr]; exact sct_ctlByte hwf m adw sct ra
      icr_ra := by rw [hcfg, hicr, raOf_ctlByte hwf]
      dip := h.dip, mci := h.mci
      pend_floppy := by rw [h.pend_floppy, hfirq, hcfg, Bool.and_comm s.firq]
      pend_others := h.pend_others
      wl := h.wl, wps := h.wps, mask := h.mask
      kprev := h.kprev, kcur := h.kcur, kevt := h.kevt, kprs := h.kprs
      drq := h.drq.trans hdrq.symm, firq := h.firq.trans hfirq.symm, rdy := h.rdy.trans hrdy.symm
      cfg := h.cfg.trans hcfg.symm, inbox := h.inbox.trans hinbox.symm, results := h.results.trans hresults.symm }

/-- A control write whose step 4 is the sub-operation that leaves `mid`: its shared effects and its end, over the
state `r` step 1 leaves, and the drive control latch and the reports as step 4 left them (R121). -/
theorem controlWrite_over_stepOne {i : Instr} {s r u mid : State} {m : Mods} {adw sct : Bool} {ra : BitVec 2}
    (hwf : s.cfg.layoutIcr.Wf) (hone : r = openBase s m.rsc) (hmods : controlMods s.cfg.layoutIcr i = some m)
    (hexec : exec i s = .next (controlWriteClose mid))
    (hsub : SubOperation s.cfg.layoutIcr i
      (controlWriteOpen s m.rsc m.cli (ctlByte s.cfg.layoutIcr m adw sct ra)) mid)
    (hanswers : SameAnswers mid u) :
    ∃ t, exec i s = .next t ∧ ControlWriteShared m adw sct ra r t ∧
      ControlWriteEnd m r u t mid.calls (loByte mid.ol) ∧
      t.dcr = mid.dcr ∧ t.sel = mid.sel ∧ t.mc = mid.mc ∧ t.reports = mid.reports := by
  subst hone
  have hstep4 := hsub.spec
  have hclose := controlWriteClose_spec mid
  have hicr : mid.icr = ctlByte s.cfg.layoutIcr m adw sct ra := by rw [hstep4.icr, controlWriteOpen_icr]
  have hend : ControlWriteEnd m (openBase s m.rsc) mid (controlWriteClose mid) mid.calls (loByte mid.ol) := by
    refine controlWriteClose_end ?_ ?_ ?_
    · rw [hstep4.bs, controlWriteOpen_bs]
    · rw [hstep4.drq, controlWriteOpen_drq]
    · rw [hstep4.cfg, controlWriteOpen_cfg, hicr, modsOf_ctlByte hwf]
  exact ⟨_, hexec, (controlWrite_spec hmods hexec).shared hwf (hclose.icr.trans hicr),
    hend.of_sameAnswers hanswers, hclose.dcr, hclose.sel, hclose.mc, hclose.reports⟩

/-! ### The four sub-operations -/

theorem routeToController_sameAnswers (s : State) (ra : BitVec 2) (d : Byte) :
    SameAnswers (routeToController s ra d) s := ⟨rfl, rfl⟩

/-- A read of a controller register uses up one answer. -/
theorem fetchFromController_sameAnswers (s : State) (ra : BitVec 2) :
    SameAnswers (fetchFromController s ra) s.dropAnswer := ⟨rfl, rfl⟩

theorem readBackDrive_sameAnswers (s : State) : SameAnswers (readBackDrive s) s := ⟨rfl, rfl⟩

theorem driveControlWrite_sameAnswers (s : State) (b : Byte) : SameAnswers (driveControlWrite s b) s := by
  rw [driveControlWrite_eq]
  exact ⟨rfl, rfl⟩

/-- Settles O18: step 4 makes the one call and leaves the latch, the drive control register and the answers. -/
theorem controlWriteToController : Obligations.ControlWriteToController := by
  intro m ra d s r hwf hone
  have hr := hone.eq_openBase
  have hanswers := controlWriteOpen_sameAnswers s m.rsc m.cli (ctlByte s.cfg.layoutIcr m true true ra)
  have h := controlWrite_over_stepOne (i := .ctlFdcw m ra d) hwf hr rfl rfl (.inl ⟨ra, d, rfl⟩)
    ((routeToController_sameAnswers _ ra d).trans hanswers)
  simpa [routeToController_eq, loByte, ← hr] using h

/-- Settles O19: step 4 uses up one answer of the controller, so a starting read takes the one after it. -/
theorem controlReadFromController : Obligations.ControlReadFromController := by
  intro m ra d s r hwf hone
  have hr := hone.eq_openBase
  have hanswers := controlWriteOpen_sameAnswers s m.rsc m.cli (ctlByte s.cfg.layoutIcr m false true ra)
  have h := controlWrite_over_stepOne (i := .ctlFdcr m ra d) hwf hr rfl rfl (.inr (.inr (.inl ⟨ra, rfl⟩)))
    ((fetchFromController_sameAnswers _ ra).trans hanswers.dropAnswer)
  simpa [fetchFromController_eq, hanswers.nextAnswer, ← hr] using h

/-- Settles O20: step 4 copies the drive control register into the low half of the latch and makes no call. -/
theorem controlReadBackDrive : Obligations.ControlReadBackDrive := by
  intro m ra d s r hwf hone
  have hr := hone.eq_openBase
  have hanswers := controlWriteOpen_sameAnswers s m.rsc m.cli (ctlByte s.cfg.layoutIcr m false false ra)
  have h := controlWrite_over_stepOne (i := .ctlDrvr m ra d) hwf hr rfl rfl (.inr (.inr (.inr rfl)))
    ((readBackDrive_sameAnswers _).trans hanswers)
  simpa [readBackDrive_eq, ← hr] using h

/-- Drive 1 wins the selection (R153). -/
theorem selectionOf_of_drv1 {l : DcrLayout} {b : Byte} (h1 : b.getLsbD l.drv1 = false) :
    selectionOf l b = .d1 := by rw [selectionOf_eq, if_pos h1]

theorem selectionOf_of_drv0 {l : DcrLayout} {b : Byte} (h1 : b.getLsbD l.drv1 = true)
    (h0 : b.getLsbD l.drv0 = false) : selectionOf l b = .d0 := by
  rw [selectionOf_eq, if_neg (by rw [h1]; decide), if_pos h0]

theorem selectionOf_of_neither {l : DcrLayout} {b : Byte} (h1 : b.getLsbD l.drv1 = true)
    (h0 : b.getLsbD l.drv0 = true) : selectionOf l b = .none := by
  rw [selectionOf_eq, if_neg (by rw [h1]; decide), if_neg (by rw [h0]; decide)]

/-- Settles O21: step 4 is the drive-control write, whose selection is the one of its byte. -/
theorem controlWriteToDriveLatch : Obligations.ControlWriteToDriveLatch := by
  intro m ra d s r hwf hone
  have hr := hone.eq_openBase
  have hanswers := controlWriteOpen_sameAnswers s m.rsc m.cli (ctlByte s.cfg.layoutIcr m true false ra)
  obtain ⟨t, hexec, hshared, hend, hdcr, hsel, hmc, hreports⟩ :=
    controlWrite_over_stepOne (i := .ctlDrvw m ra d) hwf hr rfl rfl (.inr (.inl ⟨d, rfl, rfl⟩))
      ((driveControlWrite_sameAnswers _ d).trans hanswers)
  simp only [driveControlWrite_eq, controlWriteOpen_calls, controlWriteOpen_ol, controlWriteOpen_sel,
    controlWriteOpen_mc, controlWriteOpen_reports, controlWriteOpen_cfg, ← hr] at hend hdcr hsel hmc hreports
  refine ⟨t, hexec, hshared, hdcr, congrArg PerDrive.d0 hmc, congrArg PerDrive.d1 hmc, ?drive1, ?drive0, ?none,
    hreports, ?tail⟩
  case drive1 => exact fun h1 => hsel.trans (selectionOf_of_drv1 h1)
  case drive0 => exact fun h1 h0 => hsel.trans (selectionOf_of_drv0 h1 h0)
  case none => exact fun h1 h0 => hsel.trans (selectionOf_of_neither h1 h0)
  case tail => rw [hsel]; exact hend

/-! ### The operations that change nothing in the block -/

/-- Settles O26: the arm is the return of `OL`. -/
theorem readIndexOne : Obligations.ReadIndexOne := fun _ => rfl

/-- Settles O27: the arm is the return of the parameter, whatever the state holds there. -/
theorem readIndexThree : Obligations.ReadIndexThree := fun _ => rfl

/-- Settles O28: both arms answer the state they were given. -/
theorem ignoredOperations : Obligations.IgnoredOperations := fun _ => ⟨fun _ => rfl, fun _ _ => rfl⟩

end Sys2Proof.Machine
end

section
/-! The status aggregator (spec/42_status_aggregator.md): what each device-side line or event answers, and the
statements about `FIRQ_LINE`, `RDY_LINE`, `WP_LINE` and `MCHG`. -/

namespace Sys2Proof.Machine

/-! ### The floppy interrupt condition (R175) -/

/-- Bit 4 is the floppy bit of `PEND` and of `MASK`. -/
theorem getLsbD_withBit_four (x : Byte) (v : Bool) (k : Nat) :
    (withBit x 4 v).getLsbD k = if k = 4 then v else x.getLsbD k := by
  simp only [getLsbD_withBit, Nat.reduceLT, and_true]

/-- The update writes bit 4 of `PEND` and no other. -/
theorem floppyIrqUpdate_pend_bit (s : State) (k : Nat) :
    (floppyIrqUpdate s).pend.getLsbD k = if k = 4 then floppyCondition s else s.pend.getLsbD k := by
  rw [floppyIrqUpdate_pend, getLsbD_withBit_four]

theorem floppyIrqUpdate_of_condition {s : State} {c : Bool} (h : floppyCondition s = c) :
    floppyIrqUpdate s = { s with pend := withBit s.pend 4 c } := h ▸ rfl

/-- The line counts in the condition only where `FDC_IRQ_IN_AGG` lets it in. -/
theorem floppyCondition_setFirq (s : State) (v : Bool) :
    floppyCondition { s with firq := v } = (s.dip || s.mci.d0 || s.mci.d1 || (s.cfg.fdcIrqInAgg && v)) := by
  rw [Bool.and_comm s.cfg.fdcIrqInAgg v]
  rfl

/-- The interrupt latch of either drive is enough for the condition, whatever the rest of the state. -/
theorem floppyCondition_of_mci {s : State} (d : Drive) (h : s.mci.get d = true) : floppyCondition s = true := by
  cases d with
  | d0 => simp [floppyCondition, show s.mci.d0 = true from h]
  | d1 => simp [floppyCondition, show s.mci.d1 = true from h]

/-! ### The elements of one drive -/

@[simp] theorem PerDrive.get_set_same (x : PerDrive) (d : Drive) (v : Bool) : (x.set d v).get d = v := by
  cases d <;> rfl

@[simp] theorem isSelected_d0 (sel : Sel) : isSelected .d0 sel = true ↔ sel = .d0 := beq_iff_eq
@[simp] theorem isSelected_d1 (sel : Sel) : isSelected .d1 sel = true ↔ sel = .d1 := beq_iff_eq

/-! ### The line operations -/

theorem exec_firqLine (v : Bool) (s : State) :
    exec (.firqLine v) s = .next (floppyIrqUpdate { s with firq := v }) := rfl

theorem exec_rdyLine (d : Drive) (v : Bool) (s : State) :
    exec (.rdyLine d v) s = .next { s with rdy := s.rdy.set d v } := rfl

theorem exec_wpLine_of_selected {d : Drive} {s : State} (v : Bool) (h : isSelected d s.sel = true) :
    exec (.wpLine d v) s = .next { s with wps := s.wps.set d (!v) } := if_pos h

theorem exec_wpLine_of_not_selected {d : Drive} {s : State} (v : Bool) (h : ¬ isSelected d s.sel = true) :
    exec (.wpLine d v) s = .next s := if_neg h

/-- The latch the event sets makes the floppy condition true, so `PEND[4]` is set with it. -/
theorem exec_mchg (d : Drive) (s : State) :
    exec (.mchg d) s =
      .next { s with mc := s.mc.set d true, mci := s.mci.set d true, pend := withBit s.pend 4 true } := by
  have hcond : floppyCondition { s with mc := s.mc.set d true, mci := s.mci.set d true } = true :=
    floppyCondition_of_mci d (PerDrive.get_set_same s.mci d true)
  exact congrArg Host.Outcome.next (floppyIrqUpdate_of_condition hcond)

/-! ### The statements -/

/-- Settles O30: the update sees the mirror already at the level. -/
theorem interruptRequestLine : Obligations.InterruptRequestLine := by
  intro v s
  refine ⟨(floppyIrqUpdate { s with firq := v }).pend, exec_firqLine v s, fun k => ?_⟩
  rw [floppyIrqUpdate_pend_bit, floppyCondition_setFirq]

/-- Settles O31: the equation of the operation, at each drive. -/
theorem readyLine : Obligations.ReadyLine :=
  fun v s => ⟨exec_rdyLine .d0 v s, exec_rdyLine .d1 v s⟩

/-- Settles O32: at each drive, the equation for the selected drive and the one for a drive that is not. -/
theorem writeProtectLine : Obligations.WriteProtectLine := by
  intro v s
  refine ⟨fun hsel => ?_, fun hsel => ?_, fun hsel => ?_, fun hsel => ?_⟩
  · exact exec_wpLine_of_selected v ((isSelected_d0 s.sel).mpr hsel)
  · exact exec_wpLine_of_not_selected v (mt (isSelected_d0 s.sel).mp hsel)
  · exact exec_wpLine_of_selected v ((isSelected_d1 s.sel).mpr hsel)
  · exact exec_wpLine_of_not_selected v (mt (isSelected_d1 s.sel).mp hsel)

/-- Settles O33: `PEND` is the same for both drives, bit 4 set over the old byte. -/
theorem mediaChangedEvent : Obligations.MediaChangedEvent := by
  intro s
  exact ⟨withBit s.pend 4 true, getLsbD_withBit_four s.pend true, exec_mchg .d0 s, exec_mchg .d1 s⟩

end Sys2Proof.Machine
end

section
/-! The interrupt aggregator (spec/44_interrupt_aggregator.md): the combined request bit by bit, what the two ports
answer, and the statements about `IRQ`, `SETMASK` and `SETPEND`. -/

namespace Sys2Proof.Machine

/-! ### The combined request (R173) -/

/-- The converse of `irq_of_unmasked_pending`: a byte that is not 0 has a bit at 1 among its eight. -/
theorem exists_unmasked_pending_of_irq {s : State} (h : s.irq = true) :
    ∃ k, k < 8 ∧ s.mask.getLsbD k = true ∧ s.pend.getLsbD k = true := by
  have hne : s.mask &&& s.pend ≠ 0#8 := bne_iff_ne.mp h
  contrapose! hne
  refine BitVec.eq_of_getLsbD_eq fun k hk => ?_
  rw [BitVec.getLsbD_and, BitVec.getLsbD_zero, Bool.and_eq_false_imp]
  exact fun hmask => Bool.eq_false_iff.mpr (hne k hk hmask)

/-! ### The two ports -/

/-- Every bit a port can name is a bit of the byte. -/
theorem getLsbD_withBit_port (x : Byte) (i : BitVec 3) (v : Bool) (k : Nat) :
    (withBit x i.toNat v).getLsbD k = if k = i.toNat then v else x.getLsbD k := by
  simp only [getLsbD_withBit, show i.toNat < 8 from i.isLt, and_true]

theorem exec_setmask (i : BitVec 3) (v : Bool) (s : State) :
    exec (.setmask i v) s = .next { s with mask := withBit s.mask i.toNat v } := rfl

theorem ownedPendBit_iff (i : BitVec 3) : ownedPendBit i = true ↔ i = 0#3 ∨ i = 4#3 := by
  rw [Bool.or_eq_true, beq_iff_eq, beq_iff_eq]

/-- A bit of `PEND` that an external source drives (R176). -/
theorem exec_setpend_of_not_owned {i : BitVec 3} (v : Bool) (s : State) (h : ¬ ownedPendBit i = true) :
    exec (.setpend i v) s = .next { s with pend := withBit s.pend i.toNat v } := if_neg h

/-! ### The statements -/

/-- Settles O35: a conjunction of bits is a bit of the conjunction, in both directions. -/
theorem combinedRequest : Obligations.CombinedRequest :=
  fun _ => ⟨exists_unmasked_pending_of_irq, fun ⟨k, _, hmask, hpend⟩ => irq_of_unmasked_pending k hmask hpend⟩

/-- Settles O36: the port's byte, bit by bit. -/
theorem setMaskBit : Obligations.SetMaskBit :=
  fun i v s => ⟨withBit s.mask i.toNat v, exec_setmask i v s, getLsbD_withBit_port s.mask i v⟩

/-- Settles O37: neither owned bit is named, so the port is not refused. -/
theorem setPendingBit : Obligations.SetPendingBit := by
  intro i v s hkeyboard hfloppy
  have hext : ¬ ownedPendBit i = true := by
    rw [ownedPendBit_iff]
    exact not_or_intro hkeyboard hfloppy
  exact ⟨withBit s.pend i.toNat v, exec_setpend_of_not_owned v s hext, getLsbD_withBit_port s.pend i v⟩

end Sys2Proof.Machine
end

section
/-! The keyboard scanner (spec/45_keyboard_scanner.md): where a sweep stops, what a tick and an acknowledge answer,
and the statements about `KTICK` and `KACK`. -/

namespace Sys2Proof.Machine

/-! ### The bits written -/

/-- Of a position inside the vector, the write needs no bound. -/
theorem getLsbD_withBit_of_lt {n i : Nat} (x : BitVec n) (v : Bool) (hi : i < n) (k : Nat) :
    (withBit x i v).getLsbD k = if k = i then v else x.getLsbD k := by
  simp only [getLsbD_withBit, hi, and_true]

/-- Storing a level that differs from the stored one flips it (R191: "flip that bit"). -/
theorem getLsbD_withBit_of_differs {n i : Nat} {x : BitVec n} {v : Bool} (hi : i < n) (hv : v ≠ x.getLsbD i)
    (k : Nat) : (withBit x i v).getLsbD k = if k = i then !x.getLsbD k else x.getLsbD k := by
  rw [getLsbD_withBit_of_lt x v hi]
  split
  case isTrue hk => rw [hk]; exact Bool.eq_not_of_ne hv
  case isFalse => rfl

/-! ### Where a whole sweep stops (R191) -/

/-- The cursor wraps after position 127. -/
theorem toNat_cursor_add (c : BitVec 7) (j : Nat) : (c + BitVec.ofNat 7 j).toNat = (c.toNat + j) % 128 := by
  rw [BitVec.toNat_add, BitVec.toNat_ofNat, Nat.add_mod_mod]

/-- A sweep that meets no difference goes once round, back to its cursor. -/
theorem sweep_of_agree {m kprev : BitVec 128} (c : BitVec 7)
    (h : ∀ p, p < 128 → m.getLsbD p = kprev.getLsbD p) : sweep m kprev 128 c = (c, false) := by
  rcases sweep_spec m kprev 128 c with ⟨k, -, -, hdiff, -⟩ | ⟨hstop, -⟩
  · exact absurd (h _ (BitVec.isLt _)) hdiff
  · rw [hstop, show BitVec.ofNat 7 128 = 0#7 from rfl, BitVec.add_zero]

/-- A sweep stops at the first difference: a stop before it would be at a position that agrees, a stop after it,
or none, would have passed a position that differs. -/
theorem sweep_of_first_difference {m kprev : BitVec 128} {c : BitVec 7} {n : Nat} (hpos : 1 ≤ n) (hle : n ≤ 128)
    (hbefore : ∀ j, 1 ≤ j → j < n →
      m.getLsbD ((c.toNat + j) % 128) = kprev.getLsbD ((c.toNat + j) % 128))
    (hdiff : m.getLsbD ((c.toNat + n) % 128) ≠ kprev.getLsbD ((c.toNat + n) % 128)) :
    sweep m kprev 128 c = (c + BitVec.ofNat 7 n, true) := by
  obtain ⟨n, rfl⟩ := Nat.exists_eq_add_of_le' hpos
  have hspec := sweep_spec m kprev 128 c
  simp only [toNat_cursor_add] at hspec
  rcases hspec with ⟨k, -, hstop, hstopDiff, hpassed⟩ | ⟨-, hpassed⟩
  · rcases Nat.lt_trichotomy k n with hlt | rfl | hgt
    · exact absurd (hbefore (k + 1) (Nat.le_add_left 1 k) (Nat.succ_lt_succ hlt)) hstopDiff
    · exact hstop
    · exact absurd (hpassed n hgt) hdiff
  · exact absurd (hpassed n hle) hdiff

/-! ### The tick and the acknowledge -/

/-- Scanning is halted while an event is held (R190). -/
theorem exec_ktick_of_held {s : State} (m : BitVec 128) (h : s.kevt = true) : exec (.ktick m) s = .next s :=
  if_pos h

/-- With scanning enabled and nothing found, the tick leaves only the cursor of its sweep. -/
theorem exec_ktick_of_none {s : State} {m : BitVec 128} {p : BitVec 7} (h : s.kevt = false)
    (hsweep : sweep m s.kprev 128 s.kcur = (p, false)) : exec (.ktick m) s = .next { s with kcur := p } := by
  change execKtick m s = _
  simp [execKtick, h, hsweep]

/-- With scanning enabled, the tick accepts the transition its sweep stops at. -/
theorem exec_ktick_of_found {s : State} {m : BitVec 128} {p : BitVec 7} (h : s.kevt = false)
    (hsweep : sweep m s.kprev 128 s.kcur = (p, true)) :
    exec (.ktick m) s = .next (acceptKey { s with kcur := p } m p) := by
  change execKtick m s = _
  simp [execKtick, h, hsweep]

theorem exec_kack (s : State) :
    exec .kack s =
      .next { s with
              kevt := false, pend := withBit s.pend 0 false, results := s.results ++ [.key s.kcur s.kprs] } := rfl

/-! ### The statements -/

/-- Settles O41: the tick is decided by where its sweep stops, and a level that differs from the stored one is
stored by a flip. -/
theorem tickTakesFirstDifference : Obligations.TickTakesFirstDifference := by
  intro m s
  refine ⟨exec_ktick_of_held m, fun hkevt hagree => ?_, fun n hkevt hpos hle hbefore hdiff => ?_⟩
  · exact exec_ktick_of_none hkevt (sweep_of_agree s.kcur hagree)
  · have hcursor : s.kcur + BitVec.ofNat 7 n = BitVec.ofNat 7 (s.kcur.toNat + n) := by
      rw [BitVec.ofNat_add, BitVec.ofNat_toNat, BitVec.setWidth_eq]
    have hexec := exec_ktick_of_found hkevt (sweep_of_first_difference hpos hle hbefore hdiff)
    rw [acceptKey, toNat_cursor_add, hcursor] at hexec
    exact ⟨_, _, hexec, getLsbD_withBit_of_differs (Nat.mod_lt _ (by decide)) hdiff,
      getLsbD_withBit_of_lt s.pend true (by decide)⟩

/-- Settles O42: the operation's equation, and the one bit of `PEND` it clears. -/
theorem acknowledge : Obligations.Acknowledge :=
  fun s => ⟨withBit s.pend 0 false, exec_kack s, getLsbD_withBit_of_lt s.pend false (by decide)⟩

end Sys2Proof.Machine
end

section
/-! The anomaly reports (spec/60_exceptions.md, section 1): of an access at a DMA index and of a rise of the
data-request line, that it is either a transition of the sequencer or one anomaly report. -/

namespace Sys2Proof.Machine

/-! ### One transition or one report (R216) -/

/-- What R216 asks of an operation: it answers what a read returns, and it makes one transition with no report, or
one anomaly report with nothing else changed but the mirror of the data-request line. -/
def MovesOrReports (i : Instr) (s : State) : Prop :=
  ∃ t, exec i s = .next t ∧ t.results = s.results ++ dmaReadResult s i ∧
    ((t.reports = s.reports ∧ (s.bs, t.bs) ∈ sixTransitions) ∨
     (∃ r, isAnomaly r = true ∧
       t = { s with
             drq := (s.drq || i == .drqLine true)
             results := s.results ++ dmaReadResult s i, reports := s.reports ++ [r] }))

theorem MovesOrReports.of_transition {i : Instr} {s t : State} (source target : Bs)
    (hlisted : (source, target) ∈ sixTransitions) (hexec : exec i s = .next t) (hsource : s.bs = source)
    (htarget : t.bs = target) (hreports : t.reports = s.reports)
    (hresults : t.results = s.results ++ dmaReadResult s i) : MovesOrReports i s :=
  ⟨t, hexec, hresults, .inl ⟨hreports, by rw [hsource, htarget]; exact hlisted⟩⟩

/-- An access is no rise of the data-request line, so a reported one leaves the mirror as well. -/
theorem MovesOrReports.of_access_reported {i : Instr} {s : State} {r : Report} (haccess : isDmaAccess i = true)
    (hr : isAnomaly r = true)
    (hexec : exec i s =
      .next { s with results := s.results ++ dmaReadResult s i, reports := s.reports ++ [r] }) :
    MovesOrReports i s := by
  have hrise : (i == .drqLine true) = false := by
    refine beq_false_of_ne fun h => ?_
    rw [h] at haccess
    exact Bool.false_ne_true haccess
  refine ⟨_, hexec, rfl, .inr ⟨r, hr, ?_⟩⟩
  rw [hrise, Bool.or_false]

/-- A rise that is only reported leaves the mirror up and the rest as it was. -/
theorem MovesOrReports.of_rise_reported {s : State} {r : Report} (hr : isAnomaly r = true)
    (hexec : exec (.drqLine true) s = .next { s with drq := true, reports := s.reports ++ [r] }) :
    MovesOrReports (.drqLine true) s := by
  refine ⟨_, hexec, (List.append_nil _).symm, .inr ⟨r, hr, ?_⟩⟩
  simp [dmaReadResult]

/-! ### The accesses at the DMA indices -/

theorem isDmaAccess_cases {i : Instr} (h : isDmaAccess i = true) :
    i = .rd0 ∨ i = .rd2 ∨ (∃ w, i = .wr0 w) ∨ (∃ w, i = .wr2 w) := by
  cases i with
  | rd0 => exact .inl rfl
  | rd2 => exact .inr (.inl rfl)
  | wr0 w => exact .inr (.inr (.inl ⟨w, rfl⟩))
  | wr2 w => exact .inr (.inr (.inr ⟨w, rfl⟩))
  | _ => cases h

/-- The report of an operation that returns nothing to the CPU, as a write. -/
theorem report_eq_of_no_result (s : State) (r : Report) :
    s.report r = { s with results := s.results ++ [], reports := s.reports ++ [r] } := by
  rw [List.append_nil, State.report]

theorem rd0_movesOrReports (s : State) : MovesOrReports .rd0 s := by
  by_cases hturn : s.bs = .rd2
  · exact .of_transition .rd2 .idle (by decide) (exec_rd0_of_rd2 hturn) hturn rfl rfl rfl
  · exact .of_access_reported rfl rfl (exec_rd0_of_ne_rd2 hturn)

theorem rd2_movesOrReports (s : State) : MovesOrReports .rd2 s := by
  by_cases hturn : s.bs = .rd2
  · exact .of_transition .rd2 .idle (by decide) (exec_rd2_of_rd2 hturn) hturn rfl rfl rfl
  · exact .of_access_reported rfl rfl (exec_rd2_of_ne_rd2 hturn)

theorem wr0_movesOrReports (w : Word) (s : State) : MovesOrReports (.wr0 w) s := by
  by_cases hturn : s.bs = .wr1
  · exact .of_transition .wr1 .wr2 (by decide) (exec_wr0_of_wr1 w hturn) hturn rfl rfl (List.append_nil _).symm
  · exact .of_access_reported rfl rfl ((exec_wr0_of_ne_wr1 w hturn).trans (congrArg _ (report_eq_of_no_result s _)))

theorem wr2_movesOrReports (w : Word) (s : State) : MovesOrReports (.wr2 w) s := by
  by_cases hturn : s.bs = .wr1
  · exact .of_transition .wr1 .wr2 (by decide) (exec_wr2_of_wr1 w hturn) hturn rfl rfl (List.append_nil _).symm
  · exact .of_access_reported rfl rfl ((exec_wr2_of_ne_wr1 w hturn).trans (congrArg _ (report_eq_of_no_result s _)))

/-! ### The rise of the data-request line -/

/-- Every state of the sequencer with every setting of `DEN` and `DDW` has its clause (R97). -/
theorem rise_movesOrReports {s : State} (hdrq : s.drq = false) : MovesOrReports (.drqLine true) s := by
  obtain ⟨-, -, idleWrite, idleRead, idleDisabled, wr2, rd1, cpuTurn⟩ := dataRequestLine s
  cases hbs : s.bs with
  | idle =>
    cases hden : s.icr.getLsbD s.cfg.layoutIcr.den with
    | false => exact .of_rise_reported rfl (idleDisabled hdrq hbs hden)
    | true =>
      cases hddw : s.icr.getLsbD s.cfg.layoutIcr.ddw with
      | true =>
        exact .of_transition .idle .wr1 (by decide) (idleWrite hdrq hbs hden hddw) hbs rfl rfl
          (List.append_nil _).symm
      | false =>
        exact .of_transition .idle .rd1 (by decide) (idleRead hdrq hbs hden hddw) hbs rfl (dropAnswer_reports s)
          ((dropAnswer_results s).trans (List.append_nil _).symm)
  | wr1 => exact .of_rise_reported rfl (cpuTurn hdrq (.inl hbs))
  | wr2 => exact .of_transition .wr2 .idle (by decide) (wr2 hdrq hbs) hbs rfl rfl (List.append_nil _).symm
  | rd1 =>
    exact .of_transition .rd1 .rd2 (by decide) (rd1 hdrq hbs) hbs rfl (dropAnswer_reports s)
      ((dropAnswer_results s).trans (List.append_nil _).symm)
  | rd2 => exact .of_rise_reported rfl (cpuTurn hdrq (.inr hbs))

/-! ### The statement -/

/-- Settles O13: each of the four accesses is in turn or out of turn, and a rise is the pulse of its state. -/
theorem oneTransitionOrOneAnomaly : Obligations.OneTransitionOrOneAnomaly := by
  rintro i s (haccess | ⟨rfl, hdrq⟩)
  · rcases isDmaAccess_cases haccess with rfl | rfl | ⟨w, rfl⟩ | ⟨w, rfl⟩
    · exact rd0_movesOrReports s
    · exact rd2_movesOrReports s
    · exact wr0_movesOrReports w s
    · exact wr2_movesOrReports w s
  · exact rise_movesOrReports hdrq

end Sys2Proof.Machine
end

section
/-! The system reset (spec/70_reset_and_hazards.md): the two output lines at rest, the pending byte `FloppyIrqUpdate()`
leaves after reset, and the statement about `RESET`. -/

namespace Sys2Proof.Machine

/-! ### The output lines at rest -/

/-- `Idle` is no state that waits for the CPU (R107). -/
theorem dmar_of_idle {s : State} (h : s.bs = .idle) : s.dmar = false := by
  rw [State.dmar, h]
  rfl

/-- With every source masked nothing is requested, whatever is pending (R173). -/
theorem irq_of_mask_zero {s : State} (h : s.mask = 0#8) : s.irq = false := by
  rw [State.irq, h, BitVec.zero_and, bne_self_eq_false]

/-! ### `ResetAll()` (R241) -/

theorem exec_reset (s : State) : exec .reset s = .next (resetAll s) := rfl

/-- The last step of `ResetAll()`: of `PEND` only the floppy bit can be up, and only by the controller's own line. -/
theorem withBit_zero_four_and (firq inAgg : Bool) :
    withBit 0#8 4 (firq && inAgg) = if inAgg = true ∧ firq = true then 0x10#8 else 0x00#8 := by
  cases firq <;> cases inAgg <;> rfl

theorem resetAll_bs (s : State) : (resetAll s).bs = .idle := by rw [resetAll_eq, clearStored]

theorem resetAll_mask (s : State) : (resetAll s).mask = 0#8 := by rw [resetAll_eq, clearStored]

/-! ### The statement -/

/-- Settles O45: `RESET` is `ResetAll()`, which leaves `Idle` and an empty mask, so both outputs are down. -/
theorem systemReset : Obligations.SystemReset := by
  intro s
  refine ⟨resetAll s, exec_reset s, dmar_of_idle (resetAll_bs s), irq_of_mask_zero (resetAll_mask s), ?_⟩
  rw [resetAll_eq, withBit_zero_four_and, clearStored, resetCalls]

end Sys2Proof.Machine
end

section
/-! The encoding (spec/30_encoding.md): what the decoder answers on each frame of the encoder, which frames it
accepts, and the statements about `decode` and `encode`. -/

namespace Sys2Proof

open Machine

/-! ### The parts of a code byte -/

/-- A code is the bits its mask fixes, then the operand bits the mask leaves free (R70). -/
theorem append_low_of_masked {w v : Nat} {c : BitVec (w + v)} {hi : BitVec w}
    (h : c &&& (BitVec.allOnes w ++ 0#v) = hi ++ 0#v) : hi ++ c.extractLsb' 0 v = c := by
  refine BitVec.eq_of_getLsbD_eq fun k hk => ?_
  have hbit := congrArg (·.getLsbD k) h
  simp only [BitVec.getLsbD_and, BitVec.getLsbD_append, BitVec.getLsbD_extractLsb'] at hbit ⊢
  by_cases hlow : k < v
  · simp [hlow]
  · have hin : k - v < w := by omega
    simpa [hlow, hin] using hbit.symm

theorem extractLsb'_one {n : Nat} (c : BitVec n) (k : Nat) :
    c.extractLsb' k 1 = BitVec.ofBool (c.getLsbD k) := by
  refine BitVec.eq_of_getLsbD_eq fun j hj => ?_
  obtain rfl : j = 0 := by omega
  simp

@[simp] theorem driveBit_driveOf (b : Bool) : driveBit (driveOf b) = b := by cases b <;> rfl

/-- The operand of `DRQ_LINE` and `FIRQ_LINE` is the level (R70). -/
theorem operand_level {hi : BitVec 7} {c : Byte} (h : c &&& 0xFE#8 = hi ++ 0#1) :
    hi ++ BitVec.ofBool (c.getLsbD 0) = c := by
  rw [← extractLsb'_one]
  exact append_low_of_masked (w := 7) (v := 1) h

/-- The operand of `MCHG` is the drive (R70). -/
theorem operand_drive {hi : BitVec 7} {c : Byte} (h : c &&& 0xFE#8 = hi ++ 0#1) :
    hi ++ BitVec.ofBool (driveBit (driveOf (c.getLsbD 0))) = c := by
  rw [driveBit_driveOf]
  exact operand_level h

/-- The operand of `RDY_LINE`, `WP_LINE` and `IDX_LINE`: the drive above the level (R70). -/
theorem operand_drive_level {hi : BitVec 6} {c : Byte} (h : c &&& 0xFC#8 = hi ++ 0#2) :
    hi ++ BitVec.ofBool (driveBit (driveOf (c.getLsbD 1))) ++ BitVec.ofBool (c.getLsbD 0) = c := by
  rw [driveBit_driveOf, ← extractLsb'_one, ← extractLsb'_one]
  refine .trans ?_ (append_low_of_masked (w := 6) (v := 2) h)
  rw [← BitVec.extractLsb'_append_extractLsb'_eq_extractLsb' (start₂ := 1) (len₂ := 1) (len₁ := 1) rfl]
  exact BitVec.append_assoc

/-- The operand of `SETMASK` and `SETPEND`: the bit number above the level (R70). -/
theorem operand_bit_level {hi : BitVec 4} {c : Byte} (h : c &&& 0xF0#8 = hi ++ 0#4) :
    hi ++ c.extractLsb' 1 3 ++ BitVec.ofBool (c.getLsbD 0) = c := by
  rw [← extractLsb'_one]
  refine .trans ?_ (append_low_of_masked (w := 4) (v := 4) h)
  rw [← BitVec.extractLsb'_append_extractLsb'_eq_extractLsb' (start₂ := 1) (len₂ := 3) (len₁ := 1) rfl]
  exact BitVec.append_assoc

/-- A code without operand bits is its match (R70). -/
theorem code_of_masked {c code : Byte} (h : c &&& 0xFF#8 = code) : code = c :=
  h.symm.trans BitVec.and_allOnes

/-- A bus descriptor is its `W` bit and its index under five bits of 0 (R61). -/
theorem descriptor_parts {c : Byte} (h : c.extractLsb' 3 5 = 0#5) :
    0#5 ++ BitVec.ofBool (c.getLsbD 2) ++ c.extractLsb' 0 2 = c := by
  rw [← h, ← extractLsb'_one,
    BitVec.extractLsb'_append_extractLsb'_eq_extractLsb' (start₂ := 3) (start₁ := 2) rfl,
    BitVec.extractLsb'_append_extractLsb'_eq_extractLsb' (start₂ := 2) (start₁ := 0) rfl]
  exact BitVec.extractLsb'_eq_self

/-! ### Bus frames -/

theorem decodeBus_readFrame (k : BitVec 2) : decodeBus (0#6 ++ k) [] = .ok (busRead k) := by
  revert k; decide

theorem writeDescriptor_parts (k : BitVec 2) :
    (1#6 ++ k).extractLsb' 3 5 = 0#5 ∧ (1#6 ++ k).getLsbD 2 = true ∧ (1#6 ++ k).extractLsb' 0 2 = k := by
  revert k; decide

theorem decodeBus_writeFrame (k : BitVec 2) (w : Word) :
    decodeBus (1#6 ++ k) [loByte w, hiByte w] = .ok (busWrite k w) := by
  obtain ⟨hhigh, hwrite, hindex⟩ := writeDescriptor_parts k
  rw [decodeBus, if_pos hhigh, if_pos hwrite, hindex, wordOf_hi_lo]

/-- A write with less than one whole word after its descriptor is no access (R42). -/
theorem decodeBus_narrow_write (k : BitVec 2) {data : List Byte} (h : data.length < 2) :
    decodeBus (1#6 ++ k) data = .error .accessWidth := by
  obtain ⟨hhigh, hwrite, -⟩ := writeDescriptor_parts k
  unfold decodeBus
  rw [if_pos hhigh, if_pos hwrite]
  split
  · exact absurd h (Nat.lt_irrefl 2)
  · rfl

theorem index_cases (k : BitVec 2) : k = 0#2 ∨ k = 1#2 ∨ k = 2#2 ∨ k = 3#2 := by
  revert k; decide

theorem encode_busRead (l : IcrLayout) (k : BitVec 2) : encode l (busRead k) = readFrame k := by
  rcases index_cases k with rfl | rfl | rfl | rfl <;> rfl

theorem encode_busWrite (l : IcrLayout) (k : BitVec 2) (w : Word) :
    encode l (busWrite k w) = writeFrame k w := by
  rcases index_cases k with rfl | rfl | rfl | rfl <;> rfl

/-- The decoder accepts a bus descriptor alone for a read, and with one word for a write (R42, R61). -/
theorem encode_of_decodeBus {l : IcrLayout} {c : Byte} {data : List Byte} {i : Instr}
    (h : decodeBus c data = .ok i) : encode l i = ⟨.bus, c :: data⟩ := by
  unfold decodeBus at h
  split at h
  case isFalse => cases h
  case isTrue hhigh =>
    have hparts := descriptor_parts hhigh
    split at h
    case isTrue hwrite =>
      have hc : 1#6 ++ c.extractLsb' 0 2 = c := by rwa [hwrite] at hparts
      split at h
      · cases h
        rw [encode_busWrite, writeFrame, hiByte_wordOf, loByte_wordOf, hc]
      · cases h
    case isFalse hread =>
      have hc : 0#6 ++ c.extractLsb' 0 2 = c := by rwa [Bool.eq_false_iff.mpr hread] at hparts
      split at h
      · cases h
        rw [encode_busRead, readFrame, hc]
      · cases h

/-! ### Control words -/

/-- The decoder reads a control word by its fields, which a layout keeps apart (R62, R72). -/
theorem ctlOf_ctlByte {l : IcrLayout} (hl : l.Wf) (m : Mods) (adw sct : Bool) (ra : BitVec 2) (d : Byte) :
    ctlOf l (wordOf (ctlByte l m adw sct ra) d) =
      match adw, sct with
      | true, true => .ctlFdcw m ra d
      | true, false => .ctlDrvw m ra d
      | false, true => .ctlFdcr m ra d
      | false, false => .ctlDrvr m ra d := by
  cases adw <;> cases sct <;>
    simp only [ctlOf, hiByte_wordOf, loByte_wordOf, adw_ctlByte hl, sct_ctlByte hl, modsOf_ctlByte hl,
      raOf_ctlByte hl]

theorem encode_ctlOf {l : IcrLayout} (hl : l.Wf) (w : Word) :
    encode l (ctlOf l w) = ⟨.ctl, [loByte w, hiByte w]⟩ := by
  have hfields := ctlByte_fields hl (hiByte w)
  cases hadw : bitAt (hiByte w) l.adw <;> cases hsct : bitAt (hiByte w) l.sct <;>
    rw [hadw, hsct] at hfields <;> simp only [ctlOf, hadw, hsct, encode, ctlFrame, hfields]

theorem encode_of_decodeCtl {l : IcrLayout} (hl : l.Wf) {lo : Byte} {data : List Byte} {i : Instr}
    (h : decodeCtl l lo data = .ok i) : encode l i = ⟨.ctl, lo :: data⟩ := by
  unfold decodeCtl at h
  split at h
  · cases h
    rw [encode_ctlOf hl, hiByte_wordOf, loByte_wordOf]
  · cases h

/-! ### The sample of a tick -/

/-- The four bytes of a sample group, the lowest positions first. -/
def groupBytes (g : BitVec 32) : List Byte :=
  [g.extractLsb' 0 8, g.extractLsb' 8 8, g.extractLsb' 16 8, g.extractLsb' 24 8]

theorem groupBytes_groupOf (b0 b1 b2 b3 : Byte) : groupBytes (groupOf b0 b1 b2 b3) = [b0, b1, b2, b3] := by
  simp (disch := decide) only [groupBytes, groupOf, BitVec.extractLsb'_append_eq_of_add_le,
    BitVec.extractLsb'_append_eq_of_le, BitVec.extractLsb'_eq_self, Nat.reduceSub]

/-- The operand bytes of a sample are those of its four groups in turn (R68). -/
theorem matrixBytes_matrixOf (g0 g1 g2 g3 : BitVec 32) :
    matrixBytes (matrixOf g0 g1 g2 g3) = groupBytes g0 ++ groupBytes g1 ++ groupBytes g2 ++ groupBytes g3 := by
  simp (disch := decide) only [matrixBytes, groupBytes, matrixByte, matrixOf,
    BitVec.extractLsb'_append_eq_of_add_le, BitVec.extractLsb'_append_eq_of_le, Nat.reduceSub, Nat.reduceMul,
    List.cons_append, List.nil_append]

theorem eventTick_matrixBytes (m : BitVec 128) : eventTick (matrixBytes m) = .ok (.ktick m) :=
  congrArg (fun m => Except.ok (Instr.ktick m)) (matrixOf_bytes m)

theorem encode_of_eventTick {l : IcrLayout} {data : List Byte} {i : Instr} (h : eventTick data = .ok i) :
    encode l i = evtFrame 0x70#8 data := by
  unfold eventTick at h
  split at h
  · cases h
    simp only [encode, matrixBytes_matrixOf, groupBytes_groupOf]
    rfl
  · cases h

/-! ### Event frames -/

/-- An event of one byte is accepted with no byte after its code. -/
theorem encode_of_eventAlone {l : IcrLayout} {i j : Instr} {c code : Byte} {data : List Byte}
    (h : eventAlone i data = .ok j) (hencode : encode l i = evtFrame code []) (hcode : code = c) :
    encode l j = evtFrame c data := by
  unfold eventAlone at h
  split at h
  · cases h; rw [hencode, hcode]
  · cases h

theorem decodeEvt_setmask (k : BitVec 3) (v : Bool) :
    decodeEvt (0b1001#4 ++ k ++ BitVec.ofBool v) [] = .ok (.setmask k v) := by
  revert k v; decide

theorem decodeEvt_setpend (k : BitVec 3) (v : Bool) :
    decodeEvt (0b1010#4 ++ k ++ BitVec.ofBool v) [] = .ok (.setpend k v) := by
  revert k v; decide

/-- Of each of the eleven rows of R70: the code is the row's match with the operand it was read to, and the bytes
after it are those the row has. -/
theorem encode_of_decodeEvt {l : IcrLayout} {c : Byte} {data : List Byte} {i : Instr}
    (h : decodeEvt c data = .ok i) : encode l i = evtFrame c data := by
  rw [decodeEvt] at h
  rcases ite_eq_iff.mp h with ⟨reset, h⟩ | ⟨-, h⟩
  · exact encode_of_eventAlone h rfl (code_of_masked reset)
  rcases ite_eq_iff.mp h with ⟨drqLine, h⟩ | ⟨-, h⟩
  · exact encode_of_eventAlone h rfl (operand_level (hi := 0b0001000#7) drqLine)
  rcases ite_eq_iff.mp h with ⟨firqLine, h⟩ | ⟨-, h⟩
  · exact encode_of_eventAlone h rfl (operand_level (hi := 0b0010000#7) firqLine)
  rcases ite_eq_iff.mp h with ⟨rdyLine, h⟩ | ⟨-, h⟩
  · exact encode_of_eventAlone h rfl (operand_drive_level (hi := 0b001100#6) rdyLine)
  rcases ite_eq_iff.mp h with ⟨wpLine, h⟩ | ⟨-, h⟩
  · exact encode_of_eventAlone h rfl (operand_drive_level (hi := 0b010000#6) wpLine)
  rcases ite_eq_iff.mp h with ⟨idxLine, h⟩ | ⟨-, h⟩
  · exact encode_of_eventAlone h rfl (operand_drive_level (hi := 0b010100#6) idxLine)
  rcases ite_eq_iff.mp h with ⟨mchg, h⟩ | ⟨-, h⟩
  · exact encode_of_eventAlone h rfl (operand_drive (hi := 0b0110000#7) mchg)
  rcases ite_eq_iff.mp h with ⟨ktick, h⟩ | ⟨-, h⟩
  · rw [encode_of_eventTick h, code_of_masked ktick]
  rcases ite_eq_iff.mp h with ⟨kack, h⟩ | ⟨-, h⟩
  · exact encode_of_eventAlone h rfl (code_of_masked kack)
  rcases ite_eq_iff.mp h with ⟨setmask, h⟩ | ⟨-, h⟩
  · exact encode_of_eventAlone h rfl (operand_bit_level (hi := 0b1001#4) setmask)
  rcases ite_eq_iff.mp h with ⟨setpend, h⟩ | ⟨-, h⟩
  · exact encode_of_eventAlone h rfl (operand_bit_level (hi := 0b1010#4) setpend)
  cases h

/-! ### The statements -/

/-- Settles O1: each of the three decoders reads back what the encoder wrote in its format. -/
theorem encodeThenDecodeIsIdentity : Obligations.EncodeThenDecodeIsIdentity := by
  intro l i hl
  cases i with
  | rd0 => exact decodeBus_readFrame 0#2
  | rd1 => exact decodeBus_readFrame 1#2
  | rd2 => exact decodeBus_readFrame 2#2
  | rd3 => exact decodeBus_readFrame 3#2
  | wr0 w => exact decodeBus_writeFrame 0#2 w
  | wr1 w => exact decodeBus_writeFrame 1#2 w
  | wr2 w => exact decodeBus_writeFrame 2#2 w
  | wr3 w => exact decodeBus_writeFrame 3#2 w
  | ctlFdcw m ra d => exact congrArg _ (ctlOf_ctlByte hl m true true ra d)
  | ctlDrvw m ra d => exact congrArg _ (ctlOf_ctlByte hl m true false ra d)
  | ctlFdcr m ra d => exact congrArg _ (ctlOf_ctlByte hl m false true ra d)
  | ctlDrvr m ra d => exact congrArg _ (ctlOf_ctlByte hl m false false ra d)
  | reset => rfl
  | drqLine v => cases v <;> rfl
  | firqLine v => cases v <;> rfl
  | rdyLine d v => cases d <;> cases v <;> rfl
  | wpLine d v => cases d <;> cases v <;> rfl
  | idxLine d v => cases d <;> cases v <;> rfl
  | mchg d => cases d <;> rfl
  | ktick m => exact eventTick_matrixBytes m
  | kack => rfl
  | setmask k v => exact decodeEvt_setmask k v
  | setpend k v => exact decodeEvt_setpend k v

/-- Settles O2: the first byte and the format name the decoder that accepted the frame. -/
theorem decodeThenEncodeIsIdentity : Obligations.DecodeThenEncodeIsIdentity := by
  rintro l ⟨format, bytes⟩ i hl h
  cases bytes with
  | nil => cases h
  | cons c data =>
    cases format with
    | bus => exact encode_of_decodeBus h
    | ctl => exact encode_of_decodeCtl hl h
    | evt => exact encode_of_decodeEvt h

/-- Settles O3: the decoder is run on the ten frames. -/
theorem specWordsDecode : Obligations.SpecWordsDecode := by
  unfold Obligations.SpecWordsDecode
  decide

/-! ### One step -/

theorem step_of_inbox_nil {s : State} (h : s.inbox = []) : step s = .next s := by
  rw [step, State.fetch, h]

theorem step_of_decode_ok {s : State} {f : Frame} {rest : List Frame} {i : Instr} (h : s.inbox = f :: rest)
    (hdecode : decode s.cfg.layoutIcr f = .ok i) : step s = exec i { s with inbox := rest } := by
  simp only [step, State.fetch, h, hdecode]

theorem step_of_decode_error {s : State} {f : Frame} {rest : List Frame} {e : DecodeError}
    (h : s.inbox = f :: rest) (hdecode : decode s.cfg.layoutIcr f = .error e) :
    step s = .refused (.undecodable e) := by
  simp only [step, State.fetch, h, hdecode]

/-- Settles O4: the two answers of a step that is not refused. -/
theorem stepRunsDecodedOperation : Obligations.StepRunsDecodedOperation :=
  ⟨fun _ _ _ _ hinbox hdecode => step_of_decode_ok hinbox hdecode, fun _ hinbox => step_of_inbox_nil hinbox⟩

/-- Settles O5: the frame is one the bus decoder refuses for its width. -/
theorem narrowWriteRefused : Obligations.NarrowWriteRefused :=
  fun _ index _ _ hlength hinbox => step_of_decode_error hinbox (decodeBus_narrow_write index hlength)

end Sys2Proof
end

section
/-! What each operation does, once: every operation that answers a next state is a control write, the system reset,
an operation that only outputs, or writes the few elements its rule names. The statements that every operation of
the interface completes and that only the owned pending bits are refused. -/

namespace Sys2Proof.Machine

/-! ### What a data-request pulse keeps (R97) -/

@[simp] theorem dataRequestPulse_icr (s : State) : (dataRequestPulse s).icr = s.icr :=
  (dataRequestPulse_frame s).icr
@[simp] theorem dataRequestPulse_dcr (s : State) : (dataRequestPulse s).dcr = s.dcr :=
  (dataRequestPulse_frame s).dcr
@[simp] theorem dataRequestPulse_wl (s : State) : (dataRequestPulse s).wl = s.wl :=
  (dataRequestPulse_frame s).wl
@[simp] theorem dataRequestPulse_dip (s : State) : (dataRequestPulse s).dip = s.dip :=
  (dataRequestPulse_frame s).dip
@[simp] theorem dataRequestPulse_mc (s : State) : (dataRequestPulse s).mc = s.mc :=
  (dataRequestPulse_frame s).mc
@[simp] theorem dataRequestPulse_mci (s : State) : (dataRequestPulse s).mci = s.mci :=
  (dataRequestPulse_frame s).mci
@[simp] theorem dataRequestPulse_wps (s : State) : (dataRequestPulse s).wps = s.wps :=
  (dataRequestPulse_frame s).wps
@[simp] theorem dataRequestPulse_sel (s : State) : (dataRequestPulse s).sel = s.sel :=
  (dataRequestPulse_frame s).sel
@[simp] theorem dataRequestPulse_mask (s : State) : (dataRequestPulse s).mask = s.mask :=
  (dataRequestPulse_frame s).mask
@[simp] theorem dataRequestPulse_pend (s : State) : (dataRequestPulse s).pend = s.pend :=
  (dataRequestPulse_frame s).pend
@[simp] theorem dataRequestPulse_kprev (s : State) : (dataRequestPulse s).kprev = s.kprev :=
  (dataRequestPulse_frame s).kprev
@[simp] theorem dataRequestPulse_kcur (s : State) : (dataRequestPulse s).kcur = s.kcur :=
  (dataRequestPulse_frame s).kcur
@[simp] theorem dataRequestPulse_kevt (s : State) : (dataRequestPulse s).kevt = s.kevt :=
  (dataRequestPulse_frame s).kevt
@[simp] theorem dataRequestPulse_kprs (s : State) : (dataRequestPulse s).kprs = s.kprs :=
  (dataRequestPulse_frame s).kprs
@[simp] theorem dataRequestPulse_drq (s : State) : (dataRequestPulse s).drq = s.drq :=
  (dataRequestPulse_frame s).drq
@[simp] theorem dataRequestPulse_firq (s : State) : (dataRequestPulse s).firq = s.firq :=
  (dataRequestPulse_frame s).firq
@[simp] theorem dataRequestPulse_rdy (s : State) : (dataRequestPulse s).rdy = s.rdy :=
  (dataRequestPulse_frame s).rdy
@[simp] theorem dataRequestPulse_cfg (s : State) : (dataRequestPulse s).cfg = s.cfg :=
  (dataRequestPulse_frame s).cfg
@[simp] theorem dataRequestPulse_inbox (s : State) : (dataRequestPulse s).inbox = s.inbox :=
  (dataRequestPulse_frame s).inbox
@[simp] theorem dataRequestPulse_results (s : State) : (dataRequestPulse s).results = s.results :=
  (dataRequestPulse_frame s).results

/-! ### The effect of an operation -/

/-- `Effect s i t`: the operation `i` may take `s` to `t`. One constructor for each branch of a rule that writes an
element of the block; the branches that only return or report, or do nothing at all, share one each. -/
inductive Effect (s : State) : Instr → State → Prop
  /-- A control write (R121). -/
  | control {i : Instr} {t : State} (m : Mods) (hmods : controlMods s.cfg.layoutIcr i = some m)
      (hexec : exec i s = .next t) : Effect s i t
  /-- `RESET` (R242). -/
  | reset : Effect s .reset (resetAll s)
  /-- An operation that is ignored, not heard, or finds nothing (R132, R143, R144, R191). -/
  | silent {i : Instr} (hi : controlMods s.cfg.layoutIcr i = none) : Effect s i s
  /-- A read of the window, or an access out of turn (R95, R105, R130, R131). -/
  | output {i : Instr} (hi : controlMods s.cfg.layoutIcr i = none) (results : List Result) (reports : List Report)
      (hreports : reports.length ≤ 1) :
      Effect s i { s with results := s.results ++ results, reports := s.reports ++ reports }
  /-- `WR0` in turn (R93). -/
  | accept (w : Word) (hturn : s.bs = .wr1) :
      Effect s (.wr0 w) { s with wl := w, calls := s.calls ++ [.ctlWriteData (~~~hiByte w)], bs := .wr2 }
  /-- `WR2` in turn: the terminal count too (R94, R104). -/
  | acceptLast (w : Word) (hturn : s.bs = .wr1) :
      Effect s (.wr2 w)
        { s with
          wl := w, calls := s.calls ++ [.ctlWriteData (~~~hiByte w)], bs := .wr2, dip := true
          icr := withBit s.icr s.cfg.layoutIcr.den false, pend := withBit s.pend 4 true }
  /-- `RD0` in turn (R95). -/
  | release (hturn : s.bs = .rd2) :
      Effect s .rd0 { s with results := s.results ++ [.word s.ol], bs := .idle }
  /-- `RD2` in turn: the terminal count too (R96, R104). -/
  | releaseLast (hturn : s.bs = .rd2) :
      Effect s .rd2
        { s with
          results := s.results ++ [.word s.ol], bs := .idle, dip := true
          icr := withBit s.icr s.cfg.layoutIcr.den false, pend := withBit s.pend 4 true }
  /-- A level of the data-request line that is no rise (R97). -/
  | drqLevel (v : Bool) : Effect s (.drqLine v) { s with drq := v }
  /-- A rise of the data-request line (R97). -/
  | drqRise (hdrq : s.drq = false) : Effect s (.drqLine true) (dataRequestPulse { s with drq := true })
  /-- `FIRQ_LINE` (R141). -/
  | firqLine (v : Bool) : Effect s (.firqLine v) (floppyIrqUpdate { s with firq := v })
  /-- `RDY_LINE` (R142). -/
  | rdyLine (d : Drive) (v : Bool) : Effect s (.rdyLine d v) { s with rdy := s.rdy.set d v }
  /-- `WP_LINE` of the selected drive (R143). -/
  | wpLine (d : Drive) (v : Bool) (hsel : isSelected d s.sel = true) :
      Effect s (.wpLine d v) { s with wps := s.wps.set d (!v) }
  /-- `MCHG` (R145). -/
  | mchg (d : Drive) :
      Effect s (.mchg d)
        { s with mc := s.mc.set d true, mci := s.mci.set d true, pend := withBit s.pend 4 true }
  /-- `KTICK` that accepts the transition its sweep stops at (R191). -/
  | keyFound (m : BitVec 128) (p : BitVec 7) (hkevt : s.kevt = false) :
      Effect s (.ktick m)
        { s with
          kcur := p, kprev := withBit s.kprev p.toNat (m.getLsbD p.toNat), kprs := m.getLsbD p.toNat, kevt := true
          pend := withBit s.pend 0 true }
  /-- `KACK` (R192). -/
  | keyAcknowledged :
      Effect s .kack
        { s with
          kevt := false, pend := withBit s.pend 0 false, results := s.results ++ [.key s.kcur s.kprs] }
  /-- `SETMASK` (R171). -/
  | setmask (k : BitVec 3) (v : Bool) : Effect s (.setmask k v) { s with mask := withBit s.mask k.toNat v }
  /-- `SETPEND` of a bit of the environment (R172). -/
  | setpend (k : BitVec 3) (v : Bool) (hk : ¬ ownedPendBit k = true) :
      Effect s (.setpend k v) { s with pend := withBit s.pend k.toNat v }

theorem exec_drqLine_of_not_rise {v : Bool} {s : State} (h : ¬ (s.drq = false ∧ v = true)) :
    exec (.drqLine v) s = .next { s with drq := v } := if_neg h

/-- Nothing found leaves the cursor where it was, because the sweep goes once round. -/
theorem exec_ktick_of_nothing_found {s : State} {m : BitVec 128} (hkevt : s.kevt = false)
    (hsweep : (sweep m s.kprev 128 s.kcur).2 = false) : exec (.ktick m) s = .next s :=
  exec_ktick_of_none hkevt (Prod.ext (sweep_full_none m s.kprev s.kcur hsweep) hsweep)

/-- Every operation of the interface answers a next state, by one of the effects. -/
theorem exec_completes {i : Instr} (s : State) (hwf : WellFormed i = true) :
    ∃ t, exec i s = .next t ∧ Effect s i t := by
  cases i with
  | wr1 w => exact ⟨_, rfl, .control _ rfl rfl⟩
  | ctlFdcw m ra d => exact ⟨_, rfl, .control _ rfl rfl⟩
  | ctlDrvw m ra d => exact ⟨_, rfl, .control _ rfl rfl⟩
  | ctlFdcr m ra d => exact ⟨_, rfl, .control _ rfl rfl⟩
  | ctlDrvr m ra d => exact ⟨_, rfl, .control _ rfl rfl⟩
  | rd0 =>
    by_cases hturn : s.bs = .rd2
    · exact ⟨_, exec_rd0_of_rd2 hturn, .release hturn⟩
    · exact ⟨_, exec_rd0_of_ne_rd2 hturn, .output rfl [_] [_] (Nat.le_refl 1)⟩
  | rd1 => exact ⟨_, by rw [List.append_nil, readIndexOne s], .output rfl [_] [] (Nat.zero_le 1)⟩
  | rd2 =>
    by_cases hturn : s.bs = .rd2
    · exact ⟨_, (exec_rd2_of_rd2 hturn).trans (congrArg _ (terminalCount_eq _)), .releaseLast hturn⟩
    · exact ⟨_, exec_rd2_of_ne_rd2 hturn, .output rfl [_] [_] (Nat.le_refl 1)⟩
  | rd3 => exact ⟨_, by rw [List.append_nil, readIndexThree s], .output rfl [_] [] (Nat.zero_le 1)⟩
  | wr0 w =>
    by_cases hturn : s.bs = .wr1
    · exact ⟨_, exec_wr0_of_wr1 w hturn, .accept w hturn⟩
    · exact ⟨_, (exec_wr0_of_ne_wr1 w hturn).trans (congrArg _ (report_eq_of_no_result s _)),
        .output rfl [] [_] (Nat.le_refl 1)⟩
  | wr2 w =>
    by_cases hturn : s.bs = .wr1
    · exact ⟨_, (exec_wr2_of_wr1 w hturn).trans (congrArg _ (terminalCount_eq _)), .acceptLast w hturn⟩
    · exact ⟨_, (exec_wr2_of_ne_wr1 w hturn).trans (congrArg _ (report_eq_of_no_result s _)),
        .output rfl [] [_] (Nat.le_refl 1)⟩
  | wr3 w => exact ⟨_, rfl, .silent rfl⟩
  | reset => exact ⟨_, rfl, .reset⟩
  | drqLine v =>
    by_cases hrise : s.drq = false ∧ v = true
    · obtain ⟨hdrq, rfl⟩ := hrise
      exact ⟨_, exec_drqLine_rise hdrq rfl, .drqRise hdrq⟩
    · exact ⟨_, exec_drqLine_of_not_rise hrise, .drqLevel v⟩
  | firqLine v => exact ⟨_, rfl, .firqLine v⟩
  | rdyLine d v => exact ⟨_, rfl, .rdyLine d v⟩
  | wpLine d v =>
    by_cases hsel : isSelected d s.sel = true
    · exact ⟨_, exec_wpLine_of_selected v hsel, .wpLine d v hsel⟩
    · exact ⟨_, exec_wpLine_of_not_selected v hsel, .silent rfl⟩
  | idxLine d v => exact ⟨_, rfl, .silent rfl⟩
  | mchg d => exact ⟨_, exec_mchg d s, .mchg d⟩
  | ktick m =>
    cases hkevt : s.kevt with
    | true => exact ⟨_, exec_ktick_of_held m hkevt, .silent rfl⟩
    | false =>
      cases hfound : (sweep m s.kprev 128 s.kcur).2 with
      | true => exact ⟨_, exec_ktick_of_found hkevt (Prod.ext rfl hfound), .keyFound m _ hkevt⟩
      | false => exact ⟨_, exec_ktick_of_nothing_found hkevt hfound, .silent rfl⟩
  | kack => exact ⟨_, exec_kack s, .keyAcknowledged⟩
  | setmask k v => exact ⟨_, rfl, .setmask k v⟩
  | setpend k v =>
    have hk : ¬ ownedPendBit k = true := by
      intro hk
      rw [WellFormed, hk] at hwf
      exact Bool.false_ne_true hwf
    exact ⟨_, exec_setpend_of_not_owned v s hk, .setpend k v hk⟩

/-- The model gives no meaning to a write of the block's own pending bits (R176). -/
theorem exec_setpend_of_owned {k : BitVec 3} (v : Bool) (s : State) (h : ownedPendBit k = true) :
    exec (.setpend k v) s = .refused (.pendBitOwned k) := if_pos h

theorem eq_setpend_of_not_wellFormed {i : Instr} (h : ¬ WellFormed i = true) :
    ∃ k v, i = .setpend k v ∧ ownedPendBit k = true := by
  cases i with
  | setpend k v =>
    refine ⟨k, v, rfl, ?_⟩
    rwa [WellFormed, Bool.not_eq_true', Bool.not_eq_false] at h
  | _ => exact absurd rfl h

/-- Everything an operation that answers a next state can do. -/
theorem exec_effect {i : Instr} {s t : State} (h : exec i s = .next t) : Effect s i t := by
  by_cases hwf : WellFormed i = true
  · obtain ⟨u, hu, heffect⟩ := exec_completes s hwf
    rw [h] at hu
    cases hu
    exact heffect
  · obtain ⟨k, v, rfl, hk⟩ := eq_setpend_of_not_wellFormed hwf
    rw [exec_setpend_of_owned v s hk] at h
    cases h

/-! ### The statements -/

/-- Settles O6: each well-formed operation has an effect. -/
theorem everyOperationCompletes : Obligations.EveryOperationCompletes := by
  intro i s hwf
  obtain ⟨t, hexec, -⟩ := exec_completes s hwf
  exact ⟨t, hexec⟩

/-- Settles O38: what does not complete is not well formed, and only the owned pending bits make it so. -/
theorem onlyOwnedPendingBitsRefused : Obligations.OnlyOwnedPendingBitsRefused := by
  intro i s
  refine ⟨fun v hi => ?_, fun v hi => ?_, fun hstop => ?_⟩
  · rw [hi, exec_setpend_of_owned v s rfl]
  · rw [hi, exec_setpend_of_owned v s rfl]
  · obtain ⟨k, v, rfl, hk⟩ := eq_setpend_of_not_wellFormed fun hwf => hstop (everyOperationCompletes i s hwf)
    rcases (ownedPendBit_iff k).mp hk with rfl | rfl
    · exact ⟨v, .inl rfl⟩
    · exact ⟨v, .inr rfl⟩

end Sys2Proof.Machine
end

section
/-! Who writes which element (spec/10_state.md section 2): for each element, the effects that change it, and the
statements about ownership and about what every operation outputs and keeps. -/

namespace Sys2Proof.Machine

/-! ### A control write over the state before its step 1 -/

/-- A control write resets the block, or its step 1 does nothing (R121, R240). -/
theorem controlWrite_resets_or_kept {i : Instr} {s : State} {m : Mods}
    (hmods : controlMods s.cfg.layoutIcr i = some m) :
    resetsBlock s.cfg.layoutIcr i = true ∨ openBase s m.rsc = s := by
  cases hrsc : m.rsc with
  | true => exact .inl ((resetsBlock_of_controlMods hmods).1.trans hrsc)
  | false => exact .inr rfl

/-- An element that no control write touches but by the reset of its step 1. -/
theorem controlWrite_resets_or_field {α : Type} {i : Instr} {s t : State} {m : Mods} (field : State → α)
    (hmods : controlMods s.cfg.layoutIcr i = some m) (hfield : field t = field (openBase s m.rsc)) :
    resetsBlock s.cfg.layoutIcr i = true ∨ field t = field s :=
  (controlWrite_resets_or_kept hmods).imp_right fun hbase => hfield.trans (congrArg field hbase)

/-! ### `MASK` and the external bits of `PEND` -/

/-- Settles O40: of the effects only `SETMASK` and a reset write `MASK`. -/
theorem maskOwnership : Obligations.MaskOwnership := by
  intro i s t k hexec hchanged
  cases exec_effect hexec with
  | control m hmods hexec =>
    refine (controlWrite_resets_or_field State.mask hmods (controlWrite_spec hmods hexec).mask).imp_right ?_
    exact fun hkept => absurd (congrArg (·.getLsbD k) hkept) hchanged
  | reset => exact .inl rfl
  | setmask j v =>
    rw [getLsbD_withBit_port] at hchanged
    exact .inr ⟨j, v, rfl, (by_contra fun hne => hchanged (if_neg (Ne.symm hne)))⟩
  | _ => simp at hchanged

/-- An external bit of `PEND` is no bit that `FloppyIrqUpdate()` or the scanner writes. -/
theorem pend_external_owner {i : Instr} {s t : State} {k : Nat} (hexec : exec i s = .next t)
    (hchanged : t.pend.getLsbD k ≠ s.pend.getLsbD k) (hkeyboard : k ≠ 0) (hfloppy : k ≠ 4) :
    resetsBlock s.cfg.layoutIcr i = true ∨ ∃ j v, i = .setpend j v ∧ j.toNat = k := by
  cases exec_effect hexec with
  | control m hmods hexec =>
    have hpend := (controlWrite_spec hmods hexec).pend_others k hfloppy
    refine (controlWrite_resets_or_field (·.pend.getLsbD k) hmods hpend).imp_right ?_
    exact fun hkept => absurd hkept hchanged
  | reset => exact .inl rfl
  | setpend j v _ =>
    rw [getLsbD_withBit_port] at hchanged
    exact .inr ⟨j, v, rfl, (by_contra fun hne => hchanged (if_neg (Ne.symm hne)))⟩
  | _ => simp [getLsbD_withBit, hkeyboard, hfloppy] at hchanged

/-- A `SETPEND` that completes names a bit other than the two owned ones. -/
theorem setpend_keeps_owned {j : BitVec 3} {v : Bool} {s t : State} (hexec : exec (.setpend j v) s = .next t) :
    t.pend.getLsbD 0 = s.pend.getLsbD 0 ∧ t.pend.getLsbD 4 = s.pend.getLsbD 4 := by
  by_cases hj : ownedPendBit j = true
  · rw [exec_setpend_of_owned v s hj] at hexec
    cases hexec
  · rw [exec_setpend_of_not_owned v s hj] at hexec
    cases hexec
    rw [ownedPendBit_iff, not_or] at hj
    obtain ⟨hkeyboard, hfloppy⟩ := hj
    exact ⟨(getLsbD_withBit_port ..).trans (if_neg fun h => hkeyboard (BitVec.eq_of_toNat_eq h.symm)),
      (getLsbD_withBit_port ..).trans (if_neg fun h => hfloppy (BitVec.eq_of_toNat_eq h.symm))⟩

/-- Settles O39: the owner of each external bit, and what `SETPEND` leaves. -/
theorem pendingBitOwnership : Obligations.PendingBitOwnership := by
  intro i s t hexec
  refine ⟨fun k hchanged hkeyboard hfloppy => pend_external_owner hexec hchanged hkeyboard hfloppy, ?_⟩
  rintro j v rfl
  exact setpend_keeps_owned hexec

/-! ### The keyboard state -/

/-- Settles O44: of the effects without a reset, only a tick that finds a transition writes the keyboard state, and
the acknowledge writes `KEVT`. -/
theorem keyboardOwnership : Obligations.KeyboardOwnership := by
  intro i s t hreset hexec
  cases exec_effect hexec with
  | control m hmods hexec =>
    have hbase : openBase s m.rsc = s :=
      (controlWrite_resets_or_kept hmods).resolve_left (Bool.eq_false_iff.mp hreset)
    have hspec := controlWrite_spec hmods hexec
    simp [hspec.kprev, hspec.kcur, hspec.kprs, hspec.kevt, hbase]
  | reset => cases hreset
  | keyFound m p hkevt =>
    exact ⟨fun htick => absurd rfl (htick m), fun htick _ => absurd rfl (htick m), fun _ => .inr ⟨hkevt, m, rfl⟩⟩
  | keyAcknowledged =>
    exact ⟨fun _ => ⟨rfl, rfl, rfl⟩, fun _ hkack => absurd rfl hkack,
      fun hchanged => .inl ⟨Bool.eq_true_of_not_eq_false (Ne.symm hchanged), rfl⟩⟩
  | _ => simp

/-! ### One bit per drive -/

theorem PerDrive.get_set (x : PerDrive) (d e : Drive) (v : Bool) :
    (x.set d v).get e = if e = d then v else x.get e := by
  cases d <;> cases e <;> rfl

/-- The position of the reset-media-changed bit of a drive (R63). -/
def resetMediaBit (l : DcrLayout) : Drive → Fin 8
  | .d0 => l.rmc0
  | .d1 => l.rmc1

theorem strobed_get (x : PerDrive) (l : DcrLayout) (b : Byte) (d : Drive) :
    (PerDrive.mk (x.d0 && !bitAt b l.rmc0) (x.d1 && !bitAt b l.rmc1)).get d =
      (x.get d && !b.getLsbD (resetMediaBit l d)) := by
  cases d <;> rfl

/-! ### The media-changed latches -/

/-- Without a reset a control write leaves a media-changed latch, or strobes it (R154). -/
theorem controlWrite_media {i : Instr} {s t : State} {m : Mods} (d : Drive)
    (hmods : controlMods s.cfg.layoutIcr i = some m) (hexec : exec i s = .next t) :
    t.mc.get d = (openBase s m.rsc).mc.get d ∨
    ∃ b, driveByte s.cfg.layoutIcr i = some b ∧
      t.mc.get d = ((openBase s m.rsc).mc.get d && !b.getLsbD (resetMediaBit s.cfg.layoutDcr d)) := by
  rcases (controlWrite_spec hmods hexec).latch with ⟨-, -, hmc⟩ | ⟨b, hb, -, -, hmc⟩
  · exact .inl (by rw [hmc])
  · exact .inr ⟨b, hb, by rw [hmc, strobed_get]⟩

/-- The reset of step 1 sets no media-changed latch. -/
theorem openBase_media_of_clear {s : State} (rsc : Bool) {d : Drive} (h : s.mc.get d = false) :
    (openBase s rsc).mc.get d = false := by
  cases rsc with
  | false => exact h
  | true => rw [openBase_true]; cases d <;> rfl

theorem mediaChanged_set_by_mchg {i : Instr} {s t : State} (d : Drive) (hexec : exec i s = .next t)
    (hclear : s.mc.get d = false) (hset : t.mc.get d = true) : i = .mchg d := by
  cases exec_effect hexec with
  | control m hmods hexec =>
    have hbase := openBase_media_of_clear m.rsc hclear
    rcases controlWrite_media d hmods hexec with hmc | ⟨b, -, hmc⟩
    · simp [hmc, hbase] at hset
    · simp [hmc, hbase] at hset
  | mchg e =>
    rw [PerDrive.get_set] at hset
    split at hset
    case isTrue hde => rw [hde]
    case isFalse => simp [hclear] at hset
  | reset => cases d <;> simp [resetAll_eq, clearStored, PerDrive.get] at hset
  | _ => simp [hclear] at hset

theorem mediaChanged_cleared_by_strobe {i : Instr} {s t : State} (d : Drive) (hexec : exec i s = .next t)
    (hset : s.mc.get d = true) (hclear : t.mc.get d = false) :
    resetsBlock s.cfg.layoutIcr i = true ∨
    ∃ b, driveByte s.cfg.layoutIcr i = some b ∧ b.getLsbD (resetMediaBit s.cfg.layoutDcr d) = true := by
  cases exec_effect hexec with
  | control m hmods hexec =>
    refine (controlWrite_resets_or_kept hmods).imp_right fun hbase => ?_
    rcases controlWrite_media d hmods hexec with hmc | ⟨b, hb, hmc⟩
    · simp [hmc, hbase, hset] at hclear
    · refine ⟨b, hb, ?_⟩
      simpa [hmc, hbase, hset] using hclear
  | reset => exact .inl rfl
  | mchg e => simp [PerDrive.get_set, hset] at hclear
  | _ => simp [hset] at hclear

/-- Settles O49: at each drive, who sets the latch and who clears it. -/
theorem mediaChangedOwnership : Obligations.MediaChangedOwnership :=
  fun _ _ _ hexec => ⟨mediaChanged_set_by_mchg .d0 hexec, mediaChanged_set_by_mchg .d1 hexec,
    mediaChanged_cleared_by_strobe .d0 hexec, mediaChanged_cleared_by_strobe .d1 hexec⟩

/-! ### The interrupt conditions -/

theorem terminalCount_sets_dip {i : Instr} {s t : State} (hexec : exec i s = .next t) (hclear : s.dip = false)
    (hset : t.dip = true) : (s.bs = .wr1 ∧ ∃ w, i = .wr2 w) ∨ (s.bs = .rd2 ∧ i = .rd2) := by
  cases exec_effect hexec with
  | control m hmods hexec =>
    have hbase : (openBase s m.rsc).dip = false := by
      cases m.rsc with
      | false => exact hclear
      | true => rw [openBase_true]; rfl
    simp [(controlWrite_spec hmods hexec).dip, hbase] at hset
  | acceptLast w hturn => exact .inl ⟨hturn, w, rfl⟩
  | releaseLast hturn => exact .inr ⟨hturn, rfl⟩
  | reset => simp [resetAll_eq, clearStored] at hset
  | _ => simp [hclear] at hset

/-- What a control write clears of the interrupt conditions, it clears by `RSC` or by `CLI` (R126). -/
theorem controlWrite_clears_by_modifier {i : Instr} {s : State} {m : Mods} {before after : Bool}
    (hmods : controlMods s.cfg.layoutIcr i = some m) (hset : before = true) (hclear : after = false)
    (hkept : openBase s m.rsc = s → after = (before && !m.cli)) :
    resetsBlock s.cfg.layoutIcr i = true ∨ clearsInterrupts s.cfg.layoutIcr i = true := by
  refine (controlWrite_resets_or_kept hmods).imp_right fun hbase => ?_
  rw [(resetsBlock_of_controlMods hmods).2]
  simpa [hset, hclear] using hkept hbase

theorem dip_cleared_by_modifier {i : Instr} {s t : State} (hexec : exec i s = .next t) (hset : s.dip = true)
    (hclear : t.dip = false) :
    resetsBlock s.cfg.layoutIcr i = true ∨ clearsInterrupts s.cfg.layoutIcr i = true := by
  cases exec_effect hexec with
  | control m hmods hexec =>
    refine controlWrite_clears_by_modifier hmods hset hclear fun hbase => ?_
    rw [(controlWrite_spec hmods hexec).dip, hbase]
  | reset => exact .inl rfl
  | _ => simp [hset] at hclear

theorem clearedByCli_get (x : PerDrive) (cli : Bool) (d : Drive) :
    (if cli then ⟨false, false⟩ else x : PerDrive).get d = (x.get d && !cli) := by
  cases cli <;> cases d <;> simp [PerDrive.get]

theorem mediaCondition_set_by_mchg {i : Instr} {s t : State} (d : Drive) (hexec : exec i s = .next t)
    (hclear : s.mci.get d = false) (hset : t.mci.get d = true) : i = .mchg d := by
  cases exec_effect hexec with
  | control m hmods hexec =>
    have hbase : (openBase s m.rsc).mci.get d = false := by
      cases m.rsc with
      | false => exact hclear
      | true => rw [openBase_true]; cases d <;> rfl
    rw [(controlWrite_spec hmods hexec).mci, clearedByCli_get, hbase, Bool.false_and] at hset
    cases hset
  | mchg e =>
    rw [PerDrive.get_set] at hset
    split at hset
    case isTrue hde => rw [hde]
    case isFalse => simp [hclear] at hset
  | reset => cases d <;> simp [resetAll_eq, clearStored, PerDrive.get] at hset
  | _ => simp [hclear] at hset

theorem mediaCondition_cleared_by_modifier {i : Instr} {s t : State} (d : Drive) (hexec : exec i s = .next t)
    (hset : s.mci.get d = true) (hclear : t.mci.get d = false) :
    resetsBlock s.cfg.layoutIcr i = true ∨ clearsInterrupts s.cfg.layoutIcr i = true := by
  cases exec_effect hexec with
  | control m hmods hexec =>
    refine controlWrite_clears_by_modifier hmods hset hclear fun hbase => ?_
    rw [(controlWrite_spec hmods hexec).mci, hbase, clearedByCli_get]
  | reset => exact .inl rfl
  | mchg e => simp [PerDrive.get_set, hset] at hclear
  | _ => simp [hset] at hclear

/-- Settles O50: who sets and who clears each of the three conditions. -/
theorem interruptConditionOwnership : Obligations.InterruptConditionOwnership :=
  fun _ _ _ hexec => ⟨terminalCount_sets_dip hexec, dip_cleared_by_modifier hexec,
    mediaCondition_set_by_mchg .d0 hexec, mediaCondition_set_by_mchg .d1 hexec,
    mediaCondition_cleared_by_modifier .d0 hexec, mediaCondition_cleared_by_modifier .d1 hexec⟩

/-! ### The write-protect latches and the mirrors -/

theorem writeProtect_owner {i : Instr} {s t : State} (d : Drive) (hreset : resetsBlock s.cfg.layoutIcr i = false)
    (hexec : exec i s = .next t) (hchanged : t.wps.get d ≠ s.wps.get d) :
    isSelected d s.sel = true ∧ i = .wpLine d (s.wps.get d) := by
  cases exec_effect hexec with
  | control m hmods hexec =>
    have hkept := controlWrite_resets_or_field State.wps hmods (controlWrite_spec hmods hexec).wps
    exact absurd (congrArg (·.get d) (hkept.resolve_left (Bool.eq_false_iff.mp hreset))) hchanged
  | reset => cases hreset
  | wpLine e v hsel =>
    rw [PerDrive.get_set] at hchanged
    split at hchanged
    case isTrue hde =>
      subst hde
      exact ⟨hsel, congrArg _ (Bool.not_inj (Bool.eq_not_of_ne hchanged))⟩
    case isFalse => exact absurd rfl hchanged
  | _ => simp at hchanged

/-- Settles O51: the owner of the latch, at each drive. -/
theorem writeProtectOwnership : Obligations.WriteProtectOwnership := by
  intro i s t hreset hexec
  refine ⟨fun hchanged => ?_, fun hchanged => ?_⟩
  · exact (writeProtect_owner .d0 hreset hexec hchanged).imp_left (isSelected_d0 s.sel).mp
  · exact (writeProtect_owner .d1 hreset hexec hchanged).imp_left (isSelected_d1 s.sel).mp

theorem ready_owner {i : Instr} {s t : State} (d : Drive) (hexec : exec i s = .next t)
    (hchanged : t.rdy.get d ≠ s.rdy.get d) : i = .rdyLine d (t.rdy.get d) := by
  cases exec_effect hexec with
  | control m hmods hexec => exact absurd (by rw [(controlWrite_spec hmods hexec).rdy]) hchanged
  | reset => exact absurd (by rw [resetAll_eq, clearStored]) hchanged
  | rdyLine e v =>
    rw [PerDrive.get_set] at hchanged ⊢
    split at hchanged
    case isTrue hde => rw [hde, if_pos rfl]
    case isFalse => exact absurd rfl hchanged
  | _ => simp at hchanged

theorem dataRequest_owner {i : Instr} {s t : State} (hexec : exec i s = .next t) (hchanged : t.drq ≠ s.drq) :
    i = .drqLine t.drq := by
  cases exec_effect hexec with
  | control m hmods hexec => exact absurd (controlWrite_spec hmods hexec).drq hchanged
  | reset => exact absurd (by rw [resetAll_eq, clearStored]) hchanged
  | drqLevel v => rfl
  | drqRise hdrq => rw [dataRequestPulse_drq]
  | _ => simp at hchanged

theorem interruptRequest_owner {i : Instr} {s t : State} (hexec : exec i s = .next t) (hchanged : t.firq ≠ s.firq) :
    i = .firqLine t.firq := by
  cases exec_effect hexec with
  | control m hmods hexec => exact absurd (controlWrite_spec hmods hexec).firq hchanged
  | reset => exact absurd (by rw [resetAll_eq, clearStored]) hchanged
  | firqLine v => rfl
  | _ => simp at hchanged

/-- Settles O52: the owner of each of the four mirrors. -/
theorem mirrorOwnership : Obligations.MirrorOwnership :=
  fun _ _ _ hexec => ⟨dataRequest_owner hexec, interruptRequest_owner hexec, ready_owner .d0 hexec,
    ready_owner .d1 hexec⟩

/-! ### What every operation outputs and keeps -/

/-- Settles O54: a control write reports at most the diagnostic of its drive byte, and of the others only an access
of the window and a rise of the data-request line report. -/
theorem atMostOneReport : Obligations.AtMostOneReport := by
  intro i s t hexec
  cases exec_effect hexec with
  | control m hmods hexec =>
    obtain ⟨new, hreports, hlength, hnone⟩ := (controlWrite_spec hmods hexec).reports
    exact ⟨new, hreports, hlength, fun _ => hnone⟩
  | output hi results reports hlength =>
    refine ⟨reports, rfl, hlength, fun hcontrol => ?_⟩
    rw [isControlWrite, hi] at hcontrol
    cases hcontrol
  | drqRise hdrq =>
    obtain ⟨new, hreports, hlength⟩ := (dataRequestPulse_frame { s with drq := true }).reports
    exact ⟨new, hreports, hlength, fun hcontrol => nomatch hcontrol⟩
  | _ => exact ⟨[], by simp [resetAll_eq, clearStored], Nat.zero_le 1, fun _ _ hr => nomatch hr⟩

/-- Settles O57: effect by effect, what is appended to each stream. -/
theorem outputStreamsOnlyGrow : Obligations.OutputStreamsOnlyGrow := by
  intro i s t hexec
  obtain ⟨new, hreports, -⟩ := atMostOneReport i s t hexec
  have hgrow : t.cfg = s.cfg ∧ t.inbox = s.inbox ∧ (∃ a, t.calls = s.calls ++ a) ∧
      ∃ a, t.results = s.results ++ a := by
    cases exec_effect hexec with
    | control m hmods hexec =>
      have hspec := controlWrite_spec hmods hexec
      exact ⟨hspec.cfg, hspec.inbox, hspec.calls, [], by rw [hspec.results, List.append_nil]⟩
    | reset => simp [resetAll_eq, clearStored]
    | drqRise hdrq =>
      have hframe := dataRequestPulse_frame { s with drq := true }
      exact ⟨hframe.cfg, hframe.inbox, hframe.calls, [], by rw [hframe.results, List.append_nil]⟩
    | _ => simp
  obtain ⟨hcfg, hinbox, hcalls, hresults⟩ := hgrow
  exact ⟨hcfg, hinbox, hcalls, ⟨new, hreports⟩, hresults⟩

end Sys2Proof.Machine
end

section
/-! The invariant of the block's states (spec/10_state.md section 3): each of its four parts is kept by every
operation, so a step, which runs one operation, keeps the whole. The statements about the invariant and about the
state after reset. -/

namespace Sys2Proof.Machine

/-! ### The owned pending bits (R31) -/

/-- The two parts of `PendingOwned` as bits of one byte, with the condition as `FloppyIrqUpdate()` computes it. -/
theorem pendingOwned_iff (s : State) :
    s.PendingOwned ↔ s.pend.getLsbD 0 = s.kevt ∧ s.pend.getLsbD 4 = floppyCondition s := by
  rw [State.PendingOwned, floppyCondition, Bool.and_comm s.cfg.fdcIrqInAgg]

/-- `FloppyIrqUpdate()` sets up its bit and leaves the keyboard's. -/
theorem floppyIrqUpdate_pendingOwned {s : State} (h : s.pend.getLsbD 0 = s.kevt) :
    (floppyIrqUpdate s).PendingOwned := by
  rw [pendingOwned_iff]
  exact ⟨(floppyIrqUpdate_pend_bit s 0).trans h, floppyIrqUpdate_pend_bit s 4⟩

/-- Step 1 of a control write keeps the keyboard's pending bit: after its reset both are down. -/
theorem openBase_keyboard_pending {s : State} (rsc : Bool) (h : s.pend.getLsbD 0 = s.kevt) :
    (openBase s rsc).pend.getLsbD 0 = (openBase s rsc).kevt := by
  cases rsc with
  | false => exact h
  | true => rw [openBase_true, clearStored]; exact getLsbD_withBit_four _ _ _

theorem exec_keeps_pendingOwned {i : Instr} {s t : State} (hexec : exec i s = .next t) (h : s.PendingOwned) :
    t.PendingOwned := by
  obtain ⟨hkeyboard, hfloppy⟩ := id h
  cases exec_effect hexec with
  | control m hmods hexec =>
    have hspec := controlWrite_spec hmods hexec
    refine ⟨?_, ?_⟩
    · rw [hspec.pend_others 0 (by decide), hspec.kevt]
      exact openBase_keyboard_pending m.rsc hkeyboard
    · rw [hspec.pend_floppy, hspec.cfg, hspec.firq, Bool.and_comm s.firq]
  | reset => exact floppyIrqUpdate_pendingOwned BitVec.getLsbD_zero
  | firqLine v => exact floppyIrqUpdate_pendingOwned hkeyboard
  | mchg d => exact ⟨(getLsbD_withBit_four ..).trans hkeyboard, by cases d <;> simp [getLsbD_withBit, PerDrive.set]⟩
  | drqRise hdrq => simpa [pendingOwned_iff, floppyCondition] using h
  | setpend k v hk =>
    obtain ⟨hbit0, hbit4⟩ := setpend_keeps_owned hexec
    exact ⟨hbit0.trans hkeyboard, hbit4.trans hfloppy⟩
  | acceptLast w _ => exact ⟨(getLsbD_withBit_four ..).trans hkeyboard, getLsbD_withBit_four s.pend true 4⟩
  | releaseLast _ => exact ⟨(getLsbD_withBit_four ..).trans hkeyboard, getLsbD_withBit_four s.pend true 4⟩
  | keyFound m p _ =>
    exact ⟨getLsbD_withBit_of_lt s.pend true (by decide) 0,
      (getLsbD_withBit_of_lt s.pend _ (by decide) 4).trans hfloppy⟩
  | keyAcknowledged =>
    exact ⟨getLsbD_withBit_of_lt s.pend false (by decide) 0,
      (getLsbD_withBit_of_lt s.pend _ (by decide) 4).trans hfloppy⟩
  | _ => exact h

/-! ### The selection (R153) -/

/-- After reset both enables are inactive, and no drive is selected (R241). -/
theorem selectionOf_reset (l : DcrLayout) : selectionOf l 0xFF#8 = .none := by
  have hones : ∀ p : Fin 8, (0xFF#8).getLsbD p = true := by decide
  exact selectionOf_of_neither (hones l.drv1) (hones l.drv0)

theorem openBase_selectionOfLatch {s : State} (rsc : Bool) (h : s.SelectionOfLatch) :
    (openBase s rsc).SelectionOfLatch := by
  cases rsc with
  | false => exact h
  | true => rw [openBase_true]; exact (selectionOf_reset s.cfg.layoutDcr).symm

theorem exec_keeps_selectionOfLatch {i : Instr} {s t : State} (hexec : exec i s = .next t)
    (h : s.SelectionOfLatch) : t.SelectionOfLatch := by
  cases exec_effect hexec with
  | control m hmods hexec =>
    have hspec := controlWrite_spec hmods hexec
    have hbase := openBase_selectionOfLatch m.rsc h
    rcases hspec.latch with ⟨hsel, hdcr, -⟩ | ⟨d, -, hdcr, hsel, -⟩
    · rw [State.SelectionOfLatch, hsel, hdcr, hspec.cfg]
      rwa [State.SelectionOfLatch, openBase_cfg] at hbase
    · rw [State.SelectionOfLatch, hsel, hdcr, hspec.cfg, selectionOf_eq]
  | reset => exact (selectionOf_reset s.cfg.layoutDcr).symm
  | drqRise hdrq => simpa [State.SelectionOfLatch] using h
  | _ => exact h

/-! ### The held event (R191) -/

theorem openBase_eventRecorded {s : State} (rsc : Bool) (h : s.EventRecorded) :
    (openBase s rsc).EventRecorded := by
  cases rsc with
  | false => exact h
  | true => rw [openBase_true]; exact fun hkevt => nomatch hkevt

theorem exec_keeps_eventRecorded {i : Instr} {s t : State} (hexec : exec i s = .next t) (h : s.EventRecorded) :
    t.EventRecorded := by
  cases exec_effect hexec with
  | control m hmods hexec =>
    have hspec := controlWrite_spec hmods hexec
    rw [State.EventRecorded, hspec.kevt, hspec.kprev, hspec.kcur, hspec.kprs]
    exact openBase_eventRecorded m.rsc h
  | reset => exact fun hkevt => nomatch hkevt
  | keyFound m p _ => exact fun _ => (getLsbD_withBit_of_lt s.kprev _ p.isLt _).trans (if_pos rfl)
  | keyAcknowledged => exact fun hkevt => nomatch hkevt
  | drqRise hdrq => simpa [State.EventRecorded] using h
  | _ => exact h

/-! ### The whole invariant -/

theorem exec_keeps_inv {i : Instr} {s t : State} (hexec : exec i s = .next t) (h : s.Inv) : t.Inv := by
  obtain ⟨hpending, hselection, hevent, hlayouts⟩ := h
  obtain ⟨hcfg, -⟩ := outputStreamsOnlyGrow i s t hexec
  exact ⟨exec_keeps_pendingOwned hexec hpending, exec_keeps_selectionOfLatch hexec hselection,
    exec_keeps_eventRecorded hexec hevent, hcfg ▸ hlayouts⟩

/-! ### The statements -/

/-- Settles O47: the invariant does not speak of the delivered frames, so the operation starts from it. -/
theorem stepKeepsInvariant : Obligations.StepKeepsInvariant := by
  intro s t hinv hstep
  rcases step_cases s with ⟨-, hidle⟩ | ⟨f, rest, i, -, -, hrun⟩ | ⟨f, rest, e, -, -, hrefused⟩
  · rw [hidle] at hstep
    cases hstep
    exact hinv
  · rw [hrun] at hstep
    exact exec_keeps_inv hstep hinv
  · rw [hrefused] at hstep
    cases hstep

/-- Settles O48: every part is evaluated at the reset state. -/
theorem resetHasInvariant : Obligations.ResetHasInvariant := by
  unfold Obligations.ResetHasInvariant
  decide

/-- Settles O46: `ResetAll()` writes what the reset state already holds. -/
theorem resetStateIsFixed : Obligations.ResetStateIsFixed := by
  refine ⟨?_, dmar_of_idle rfl, irq_of_mask_zero rfl, rfl, rfl, rfl⟩
  rw [exec_reset, resetAll_eq, clearStored]
  rfl

end Sys2Proof.Machine
end

section
/-! The DMA transfer sequencer between operations (spec/40_dma_sequencer.md section 4): which operations move it, the
two round trips, and that a control write leaves a running transfer alone. -/

namespace Sys2Proof.Machine

/-! ### The start of a transfer (R92) -/

/-- From `Idle`, with the request up and `DEN` set, the transfer `DDW` names is started (R98, R101). -/
structure StartsTransfer (s t : State) : Prop where
  idle : s.bs = .idle
  drq : t.drq = true
  den : t.icr.getLsbD s.cfg.layoutIcr.den = true
  start : (t.icr.getLsbD s.cfg.layoutIcr.ddw = true ∧ t.bs = .wr1) ∨
    (t.icr.getLsbD s.cfg.layoutIcr.ddw = false ∧ t.bs = .rd1)

theorem dmaEvaluate_bs (s : State) : (dmaEvaluate s).bs = s.bs ∨ StartsTransfer s (dmaEvaluate s) := by
  have hframe := dmaEvaluate_frame s
  rcases dmaEvaluate_cases s with ⟨-, heq⟩ | ⟨⟨hidle, hden, hdrq⟩, hddw, heq⟩ | ⟨⟨hidle, hden, hdrq⟩, hddw, heq⟩
  · exact .inl (congrArg State.bs heq)
  · refine .inr ⟨hidle, hframe.drq.trans hdrq, ?_, .inl ⟨?_, by rw [heq]⟩⟩ <;> rwa [hframe.icr]
  · refine .inr ⟨hidle, hframe.drq.trans hdrq, ?_, .inr ⟨?_, by rw [heq]; rfl⟩⟩ <;> rwa [hframe.icr]

/-! ### A control write and the sequencer -/

/-- Of a control write only its last step, the start test, moves the sequencer (R129). -/
theorem controlWrite_bs {i : Instr} {s t : State} {m : Mods} (hmods : controlMods s.cfg.layoutIcr i = some m)
    (hexec : exec i s = .next t) :
    t.bs = (openBase s m.rsc).bs ∨ StartsTransfer (openBase s m.rsc) t := by
  obtain ⟨c, mid, hshape, -, hsub⟩ := controlWrite_shape i s m hmods
  rw [hshape] at hexec
  cases hexec
  have hstep4 := hsub.spec
  have hbs : mid.bs = (openBase s m.rsc).bs := by rw [hstep4.bs, controlWriteOpen_bs]
  have hcfg : mid.cfg = (openBase s m.rsc).cfg := by rw [hstep4.cfg, controlWriteOpen_cfg, openBase_cfg]
  rcases dmaEvaluate_bs (statusWritten mid) with hkept | ⟨hidle, hdrq, hden, hstart⟩
  · exact .inl (hkept.trans hbs)
  · rw [show (statusWritten mid).cfg = (openBase s m.rsc).cfg from hcfg] at hden hstart
    exact .inr ⟨hbs.symm.trans hidle, hdrq, hden, hstart⟩

/-- A control write stores its modifiers (R121 step 2). -/
theorem controlWrite_icr_mods {i : Instr} {s t : State} {m : Mods} (hwf : s.cfg.layoutIcr.Wf)
    (hmods : controlMods s.cfg.layoutIcr i = some m) (hexec : exec i s = .next t) :
    modsOf s.cfg.layoutIcr t.icr = m := by
  obtain ⟨c, mid, hshape, hc, hsub⟩ := controlWrite_shape i s m hmods
  rw [hshape] at hexec
  cases hexec
  rw [(controlWriteClose_spec mid).icr, hsub.spec.icr, controlWriteOpen_icr, hc hwf]

theorem controlMods_wellFormed {l : IcrLayout} {i : Instr} {m : Mods} (h : controlMods l i = some m) :
    WellFormed i = true := by
  cases i with
  | setpend k v => cases h
  | _ => rfl

/-- Settles O15: the start test does nothing outside `Idle`. -/
theorem controlWriteDoesNotAbortTransfer : Obligations.ControlWriteDoesNotAbortTransfer := by
  intro i m s hwf hmods hrsc hphase
  obtain ⟨t, hexec, -⟩ := exec_completes s (controlMods_wellFormed hmods)
  have hspec := controlWrite_spec hmods hexec
  obtain ⟨new, hreports, -, hnone⟩ := hspec.reports
  have hbs := controlWrite_bs hmods hexec
  have hwl := hspec.wl
  rw [hrsc, openBase_false] at hbs hwl
  refine ⟨t, new, hexec, ?_, hwl, controlWrite_icr_mods hwf hmods hexec, hreports, hnone⟩
  exact hbs.resolve_right fun hstart => hphase hstart.idle

/-! ### Which operations move the sequencer (R91, R108) -/

/-- A pulse starts a transfer, sends or reads the second byte, or leaves the sequencer (R97). -/
theorem dataRequestPulse_bs (s : State) :
    (dataRequestPulse s).bs = s.bs ∨ StartsTransfer s (dataRequestPulse s) ∨
    (s.bs = .wr2 ∧ (dataRequestPulse s).bs = .idle) ∨ (s.bs = .rd1 ∧ (dataRequestPulse s).bs = .rd2) := by
  rcases dataRequestPulse_cases s with
    ⟨-, -, heq⟩ | ⟨-, -, heq⟩ | ⟨hbs, heq⟩ | ⟨hbs, heq⟩ | ⟨-, heq⟩ | ⟨-, heq⟩ <;> rw [heq]
  · exact (dmaEvaluate_bs s).imp_right .inl
  · exact .inl rfl
  · exact .inr (.inr (.inl ⟨hbs, rfl⟩))
  · exact .inr (.inr (.inr ⟨hbs, rfl⟩))
  · exact .inl rfl
  · exact .inl rfl

/-- Settles O14: by the effect of the operation, and for the two that test for a start by what they start. -/
theorem onlyListedStimuliMoveTheSequencer : Obligations.OnlyListedStimuliMoveTheSequencer := by
  intro i s t hreset hexec hmoved
  cases exec_effect hexec with
  | control m hmods hexec =>
    have hbase : openBase s m.rsc = s :=
      (controlWrite_resets_or_kept hmods).resolve_left (Bool.eq_false_iff.mp hreset)
    have hcontrol : isControlWrite s.cfg.layoutIcr i = true := by rw [isControlWrite, hmods]; rfl
    have hbs := controlWrite_bs hmods hexec
    rw [hbase] at hbs
    obtain ⟨hidle, hdrq, hden, ⟨hddw, hto⟩ | ⟨hddw, hto⟩⟩ := hbs.resolve_left hmoved
    · exact .inl ⟨hidle, hto, hdrq, hden, hddw, .inl hcontrol⟩
    · exact .inr (.inl ⟨hidle, hto, hdrq, hden, hddw, .inl hcontrol⟩)
  | drqRise hdrq =>
    rcases (dataRequestPulse_bs { s with drq := true }).resolve_left hmoved with
      ⟨hidle, hup, hden, ⟨hddw, hto⟩ | ⟨hddw, hto⟩⟩ | ⟨hfrom, hto⟩ | ⟨hfrom, hto⟩
    · exact .inl ⟨hidle, hto, hup, hden, hddw, .inr ⟨rfl, hdrq⟩⟩
    · exact .inr (.inl ⟨hidle, hto, hup, hden, hddw, .inr ⟨rfl, hdrq⟩⟩)
    · exact .inr (.inr (.inr (.inl ⟨hfrom, hto, rfl, hdrq⟩)))
    · exact .inr (.inr (.inr (.inr (.inl ⟨hfrom, hto, rfl, hdrq⟩))))
  | accept w hturn => exact .inr (.inr (.inl ⟨hturn, rfl, w, .inl rfl⟩))
  | acceptLast w hturn => exact .inr (.inr (.inl ⟨hturn, rfl, w, .inr rfl⟩))
  | release hturn => exact .inr (.inr (.inr (.inr (.inr ⟨hturn, rfl, .inl rfl⟩))))
  | releaseLast hturn => exact .inr (.inr (.inr (.inr (.inr ⟨hturn, rfl, .inr rfl⟩))))
  | reset => cases hreset
  | _ => simp at hmoved

/-- Settles O12: the two states of the definition. -/
theorem dmaRequestOutput : Obligations.DmaRequestOutput := by
  intro s
  rw [State.dmar, Bool.or_eq_true, beq_iff_eq, beq_iff_eq]

/-! ### The round trips -/

/-- An access of the CPU that accepts the word, with or without the terminal count (R93, R94). -/
theorem exec_write_of_wr1 {i : Instr} {s : State} {w : Word} (hi : i = .wr0 w ∨ i = .wr2 w) (hturn : s.bs = .wr1) :
    ∃ t, exec i s = .next t ∧ t.bs = .wr2 ∧ t.wl = w ∧ t.reports = s.reports ∧
      t.calls = s.calls ++ [.ctlWriteData (~~~hiByte w)] := by
  rcases hi with rfl | rfl
  · exact ⟨_, exec_wr0_of_wr1 w hturn, rfl, rfl, rfl, rfl⟩
  · exact ⟨_, exec_wr2_of_wr1 w hturn, rfl, rfl, rfl, rfl⟩

/-- An access of the CPU that takes the word read, with or without the terminal count (R95, R96). -/
theorem exec_read_of_rd2 {i : Instr} {s : State} (hi : i = .rd0 ∨ i = .rd2) (hturn : s.bs = .rd2) :
    ∃ t, exec i s = .next t ∧ t.bs = .idle ∧ t.reports = s.reports ∧ t.calls = s.calls ∧
      t.results = s.results ++ [.word s.ol] := by
  rcases hi with rfl | rfl
  · exact ⟨_, exec_rd0_of_rd2 hturn, rfl, rfl, rfl, rfl⟩
  · exact ⟨_, exec_rd2_of_rd2 hturn, rfl, rfl, rfl, rfl⟩

/-- Settles O16: each of the four operations by its own equation, the two calls one after the other. -/
theorem writeRoundTrip : Obligations.WriteRoundTrip := by
  intro s w i hi hidle hdrq hden hddw
  obtain ⟨t2, haccess, hbs, hwl, hreports, hcalls⟩ :=
    exec_write_of_wr1 (s := { s with drq := true, bs := .wr1 }) hi rfl
  have hstart : exec (.drqLine true) s = .next { s with drq := true, bs := .wr1 } :=
    exec_drqLine_rise hdrq (dataRequestPulse_of_idle_write hidle rfl hden hddw)
  refine ⟨_, t2, _, _, hstart, haccess, exec_drqLine_false t2,
    exec_drqLine_rise rfl (dataRequestPulse_of_wr2 hbs), rfl, hreports, ?_⟩
  simp [sendLowByte_eq, hcalls, hwl, hiByte, loByte]

/-- The rise that starts a read takes the controller's next answer as the high half (R101). -/
theorem exec_rise_of_idle_read {s : State} (hdrq : s.drq = false) (hidle : s.bs = .idle) (hden : s.den = true)
    (hddw : s.ddw = false) :
    ∃ t, exec (.drqLine true) s = .next t ∧ t.bs = .rd1 ∧ t.reports = s.reports ∧ t.results = s.results ∧
      t.calls = s.calls ++ [.ctlReadData s.nextAnswer] ∧ hiByte t.ol = ~~~s.nextAnswer := by
  refine ⟨_, exec_drqLine_rise hdrq (dataRequestPulse_of_idle_read hidle rfl hden hddw), rfl, ?_, ?_, ?_, ?_⟩ <;>
    rw [startRead_eq]
  · exact dropAnswer_reports _
  · exact dropAnswer_results _
  · rfl
  · exact hiByte_withHi _ _

/-- The rise in `RD1` takes the controller's next answer as the low half (R102). -/
theorem exec_rise_of_rd1 {s : State} (hdrq : s.drq = false) (hbs : s.bs = .rd1) :
    ∃ t, exec (.drqLine true) s = .next t ∧ t.bs = .rd2 ∧ t.reports = s.reports ∧ t.results = s.results ∧
      t.calls = s.calls ++ [.ctlReadData s.nextAnswer] ∧ t.ol = wordOf (hiByte s.ol) (~~~s.nextAnswer) := by
  refine ⟨_, exec_drqLine_rise hdrq (dataRequestPulse_of_rd1 hbs), rfl, ?_, ?_, ?_, ?_⟩ <;> rw [readLowByte_eq]
  · exact dropAnswer_reports _
  · exact dropAnswer_results _
  · rfl
  · rfl

/-- Settles O17: the four operations one after the other; the two bytes are the answers the two rises use up. -/
theorem readRoundTrip : Obligations.ReadRoundTrip := by
  intro s i hi hidle hdrq hden hddw
  obtain ⟨t1, hfirst, hbs1, hreports1, hresults1, hcalls1, hhigh⟩ := exec_rise_of_idle_read hdrq hidle hden hddw
  obtain ⟨t3, hsecond, hbs3, hreports3, hresults3, hcalls3, hol⟩ :=
    exec_rise_of_rd1 (s := { t1 with drq := false }) rfl hbs1
  obtain ⟨t4, haccess, hend, hreports4, hcalls4, hresults4⟩ := exec_read_of_rd2 hi hbs3
  refine ⟨t1, _, t3, t4, s.nextAnswer, t1.nextAnswer, hfirst, exec_drqLine_false t1, hsecond, haccess, hend,
    (hreports4.trans hreports3).trans hreports1, ?calls, ?results⟩
  case calls =>
    rw [hcalls4, hcalls3, hcalls1, List.append_assoc]
    rfl
  case results =>
    rw [hresults4, hresults3, hresults1, hol, hhigh]
    rfl

end Sys2Proof.Machine
end

section
/-! What no operation reads (spec/10_state.md section 2, spec/60_exceptions.md section 1): the reports made, the high
byte of the write latch, and the stored control bits other than `DEN` and `DDW`. Two states that differ there do the
same and differ there afterwards: shown for each shared operation, then for every operation. -/

namespace Sys2Proof.Machine

/-! ### Two states that differ in what is not read -/

/-- Values for the three elements that are read in part or not at all. -/
structure Unread where
  icr : Byte
  wl : Word
  reports : List Report

/-- The state with other values of the three. -/
def State.overlay (s : State) (h : Unread) : State :=
  { s with icr := h.icr, wl := h.wl, reports := h.reports }

/-- What is read of the three is as in the state: `DEN`, `DDW` and `WL[7:0]` (R12, R15). -/
structure ReadAlike (s : State) (h : Unread) : Prop where
  den : h.icr.getLsbD s.cfg.layoutIcr.den = s.icr.getLsbD s.cfg.layoutIcr.den
  ddw : h.icr.getLsbD s.cfg.layoutIcr.ddw = s.icr.getLsbD s.cfg.layoutIcr.ddw
  wlLow : loByte h.wl = loByte s.wl

/-- From the states `s` and `s.overlay h` to `t` and `t.overlay h'`: a bit of `ICR` or `WL` that was the same is the
same afterwards, and both have made the same new reports. -/
structure CarriedOver (s : State) (h : Unread) (t : State) (h' : Unread) : Prop where
  cfg : t.cfg = s.cfg
  icr : ∀ k, h.icr.getLsbD k = s.icr.getLsbD k → h'.icr.getLsbD k = t.icr.getLsbD k
  wl : ∀ k, h.wl.getLsbD k = s.wl.getLsbD k → h'.wl.getLsbD k = t.wl.getLsbD k
  reports : ∃ new, t.reports = s.reports ++ new ∧ h'.reports = h.reports ++ new

theorem CarriedOver.trans {s t u : State} {h h' h'' : Unread} (hst : CarriedOver s h t h')
    (htu : CarriedOver t h' u h'') : CarriedOver s h u h'' := by
  obtain ⟨new, ht, hh'⟩ := hst.reports
  obtain ⟨new', hu, hh''⟩ := htu.reports
  exact
    { cfg := htu.cfg.trans hst.cfg
      icr := fun k hk => htu.icr k (hst.icr k hk)
      wl := fun k hk => htu.wl k (hst.wl k hk)
      reports := ⟨new ++ new', by rw [hu, ht, List.append_assoc], by rw [hh'', hh', List.append_assoc]⟩ }

theorem CarriedOver.icr_eq {s t : State} {h h' : Unread} (hc : CarriedOver s h t h') (heq : h.icr = s.icr) :
    h'.icr = t.icr :=
  BitVec.eq_of_getLsbD_eq fun k _ => hc.icr k (by rw [heq])

theorem CarriedOver.wl_eq {s t : State} {h h' : Unread} (hc : CarriedOver s h t h') (heq : h.wl = s.wl) :
    h'.wl = t.wl :=
  BitVec.eq_of_getLsbD_eq fun k _ => hc.wl k (by rw [heq])

theorem CarriedOver.reports_eq {s t : State} {h h' : Unread} (hc : CarriedOver s h t h')
    (heq : h.reports = s.reports) : h'.reports = t.reports := by
  obtain ⟨new, ht, hh'⟩ := hc.reports
  rw [hh', ht, heq]

theorem loByte_bit (w : Word) {k : Nat} (hk : k < 8) : (loByte w).getLsbD k = w.getLsbD k := by
  simp [loByte, hk]

theorem loByte_eq_iff {v w : Word} : loByte v = loByte w ↔ ∀ k, k < 8 → v.getLsbD k = w.getLsbD k := by
  refine ⟨fun h k hk => ?_, fun h => BitVec.eq_of_getLsbD_eq fun k hk => ?_⟩
  · rw [← loByte_bit v hk, ← loByte_bit w hk, h]
  · rw [loByte_bit v hk, loByte_bit w hk, h k hk]

theorem CarriedOver.readAlike {s t : State} {h h' : Unread} (hc : CarriedOver s h t h') (hread : ReadAlike s h) :
    ReadAlike t h' where
  den := by rw [hc.cfg]; exact hc.icr _ hread.den
  ddw := by rw [hc.cfg]; exact hc.icr _ hread.ddw
  wlLow := loByte_eq_iff.mpr fun k hk => hc.wl k (loByte_eq_iff.mp hread.wlLow k hk)

/-! ### Updates that read no more than that -/

/-- The update does the same from two states that differ in what is not read. -/
def Transparent (F : State → State) : Prop :=
  ∀ s h, ReadAlike s h → ∃ h', F (s.overlay h) = (F s).overlay h' ∧ CarriedOver s h (F s) h'

theorem Transparent.comp {F G : State → State} (hG : Transparent G) (hF : Transparent F) :
    Transparent fun s => G (F s) := by
  intro s h hread
  obtain ⟨h', heq, hcarried⟩ := hF s h hread
  obtain ⟨h'', heq', hcarried'⟩ := hG (F s) h' (hcarried.readAlike hread)
  exact ⟨h'', (congrArg G heq).trans heq', hcarried.trans hcarried'⟩

/-- An update that neither reads nor writes the three leaves them: take for the other values the state's own. -/
theorem Transparent.of_blind {F : State → State} (hblind : ∀ s h, F (s.overlay h) = (F s).overlay h)
    (hcfg : ∀ s, (F s).cfg = s.cfg) : Transparent F := by
  intro s h _
  have hown : F s = (F s).overlay ⟨s.icr, s.wl, s.reports⟩ := hblind s ⟨s.icr, s.wl, s.reports⟩
  have hicr : (F s).icr = s.icr := (congrArg State.icr hown).trans rfl
  have hwl : (F s).wl = s.wl := (congrArg State.wl hown).trans rfl
  have hreports : (F s).reports = s.reports := (congrArg State.reports hown).trans rfl
  refine ⟨h, hblind s h, hcfg s, ?_, ?_, [], ?_, (List.append_nil _).symm⟩
  · rw [hicr]; exact fun _ hk => hk
  · rw [hwl]; exact fun _ hk => hk
  · rw [hreports, List.append_nil]

theorem Transparent.report (r : State → Report) (hr : ∀ s h, r (s.overlay h) = r s) :
    Transparent fun s => s.report (r s) := by
  intro s h _
  refine ⟨{ h with reports := h.reports ++ [r s] }, ?_, rfl, fun _ hk => hk, fun _ hk => hk, [r s], rfl, rfl⟩
  simp only [hr]
  rfl

/-! ### The shared operations -/

theorem dropAnswer_overlay (s : State) (h : Unread) : (s.overlay h).dropAnswer = s.dropAnswer.overlay h := by
  unfold State.dropAnswer State.overlay
  cases s.answers <;> rfl

theorem startRead_transparent : Transparent startRead :=
  .of_blind (fun s h => by rw [startRead_eq, startRead_eq, dropAnswer_overlay]; rfl) fun s => by simp [startRead_eq]

theorem readLowByte_transparent : Transparent readLowByte :=
  .of_blind (fun s h => by rw [readLowByte_eq, readLowByte_eq, dropAnswer_overlay]; rfl) fun s => by
    simp [readLowByte_eq]

theorem fetchFromController_transparent (ra : BitVec 2) : Transparent fun s => fetchFromController s ra :=
  .of_blind (fun s h => by rw [fetchFromController_eq, fetchFromController_eq, dropAnswer_overlay]; rfl) fun s => by
    simp [fetchFromController_eq]

/-- Of the write latch the low byte alone is sent (R100). -/
theorem sendLowByte_transparent : Transparent sendLowByte := by
  intro s h hread
  refine ⟨h, ?_, rfl, fun _ hk => hk, fun _ hk => hk, [], (List.append_nil _).symm, (List.append_nil _).symm⟩
  rw [sendLowByte_eq, sendLowByte_eq, show loByte (s.overlay h).wl = loByte s.wl from hread.wlLow]
  rfl

theorem acceptWord_transparent (w : Word) : Transparent fun s => acceptWord s w :=
  fun _ h _ => ⟨{ h with wl := w }, rfl, rfl, fun _ hk => hk, fun _ _ => rfl, [], (List.append_nil _).symm,
    (List.append_nil _).symm⟩

/-- The terminal count writes one bit of `ICR` and keeps the rest (R104). -/
theorem terminalCount_transparent : Transparent terminalCount := by
  intro s h _
  refine ⟨{ h with icr := withBit h.icr s.cfg.layoutIcr.den false }, rfl, rfl, fun k hk => ?_, fun _ hk => hk, [],
    (List.append_nil _).symm, (List.append_nil _).symm⟩
  rw [terminalCount_icr_bit, getLsbD_withBit_of_lt h.icr false s.cfg.layoutIcr.den.isLt, hk]

/-- The start test reads `DEN` and `DDW` alone of `ICR` (R92, R98, R101). -/
theorem dmaEvaluate_transparent : Transparent dmaEvaluate := by
  intro s h hread
  have hden : (s.overlay h).den = s.den := hread.den
  have hddw : (s.overlay h).ddw = s.ddw := hread.ddw
  have hwrite : Transparent fun s => { s with bs := .wr1 } := .of_blind (fun _ _ => rfl) fun _ => rfl
  have hnone : Transparent fun s => s := .of_blind (fun _ _ => rfl) fun _ => rfl
  unfold dmaEvaluate
  rw [hden, hddw]
  by_cases hstart : s.bs = .idle ∧ s.den = true ∧ s.drq = true
  · rw [if_pos hstart, if_pos (show (s.overlay h).bs = .idle ∧ s.den = true ∧ (s.overlay h).drq = true from hstart)]
    cases s.ddw with
    | true => exact hwrite s h hread
    | false => exact startRead_transparent s h hread
  · rw [if_neg hstart, if_neg (show ¬((s.overlay h).bs = .idle ∧ s.den = true ∧ (s.overlay h).drq = true) from hstart)]
    exact hnone s h hread

theorem dataRequestPulse_of_idle_enabled {s : State} (hbs : s.bs = .idle) (hden : s.den = true) :
    dataRequestPulse s = dmaEvaluate s := by
  simp [dataRequestPulse, hbs, hden]

/-- By the state of the sequencer, and in `Idle` by `DEN` (R97). -/
theorem dataRequestPulse_transparent : Transparent dataRequestPulse := by
  intro s h hread
  have hden' : (s.overlay h).den = s.den := hread.den
  have hreport (r : Bs → Report) : Transparent fun s => s.report (r s.bs) := .report _ fun _ _ => rfl
  cases hbs : s.bs with
  | idle =>
    cases hden : s.den with
    | true =>
      rw [dataRequestPulse_of_idle_enabled hbs hden,
        dataRequestPulse_of_idle_enabled (s := s.overlay h) hbs (hden'.trans hden)]
      exact dmaEvaluate_transparent s h hread
    | false =>
      rw [dataRequestPulse_of_idle_disabled hbs hden,
        dataRequestPulse_of_idle_disabled (s := s.overlay h) hbs (hden'.trans hden)]
      exact hreport (fun _ => .an3 .idle) s h hread
  | wr2 =>
    rw [dataRequestPulse_of_wr2 hbs, dataRequestPulse_of_wr2 (s := s.overlay h) hbs]
    exact sendLowByte_transparent s h hread
  | rd1 =>
    rw [dataRequestPulse_of_rd1 hbs, dataRequestPulse_of_rd1 (s := s.overlay h) hbs]
    exact readLowByte_transparent s h hread
  | wr1 =>
    rw [dataRequestPulse_of_cpu_turn (.inl hbs), dataRequestPulse_of_cpu_turn (s := s.overlay h) (.inl hbs)]
    exact hreport .an4 s h hread
  | rd2 =>
    rw [dataRequestPulse_of_cpu_turn (.inr hbs), dataRequestPulse_of_cpu_turn (s := s.overlay h) (.inr hbs)]
    exact hreport .an4 s h hread

theorem resetAll_transparent : Transparent resetAll :=
  fun _ h _ => ⟨{ h with icr := 0x00#8, wl := 0x0000#16 }, rfl, rfl, fun _ _ => rfl, fun _ _ => rfl, [],
    (List.append_nil _).symm, (List.append_nil _).symm⟩

/-! ### The steps of a control write -/

/-- Steps 1 to 3 overwrite `ICR`, and with `RSC` the write latch (R121, R127). -/
theorem controlWriteOpen_transparent (rsc cli : Bool) (c : Byte) :
    Transparent fun s => controlWriteOpen s rsc cli c := by
  have hreset : Transparent controllerReset :=
    .comp (G := fun s => s.call .ctlSoftReset) (.of_blind (fun _ _ => rfl) fun _ => rfl) resetAll_transparent
  have hstore : Transparent fun s => { s with icr := c } :=
    fun _ h _ => ⟨{ h with icr := c }, rfl, rfl, fun _ _ => rfl, fun _ hk => hk, [], (List.append_nil _).symm,
      (List.append_nil _).symm⟩
  have hclear : Transparent clearInterrupts := .of_blind (fun _ _ => rfl) fun _ => rfl
  cases rsc <;> cases cli
  · exact hstore
  · exact hclear.comp hstore
  · exact hstore.comp hreset
  · exact hclear.comp (hstore.comp hreset)

/-- The diagnostic of a drive-control write depends on its byte alone (R215). -/
theorem driveControlWrite_transparent (b : Byte) : Transparent fun s => driveControlWrite s b := by
  intro s h _
  simp only [driveControlWrite_eq]
  exact ⟨{ h with reports := h.reports ++ _ }, rfl, rfl, fun _ hk => hk, fun _ hk => hk, _, rfl, rfl⟩

theorem routeToController_transparent (ra : BitVec 2) (d : Byte) : Transparent fun s => routeToController s ra d :=
  .of_blind (fun _ _ => rfl) fun _ => rfl

theorem readBackDrive_transparent : Transparent readBackDrive := .of_blind (fun _ _ => rfl) fun _ => rfl

theorem controlWriteClose_transparent : Transparent controlWriteClose :=
  dmaEvaluate_transparent.comp (F := statusWritten) (.of_blind (fun _ _ => rfl) fun _ => rfl)

/-- Step 4 of a write of index 1, by the two bits of its control byte (R121). -/
def wordStepFour (l : IcrLayout) (c d : Byte) (o : State) : State :=
  if bitAt c l.adw then
    if bitAt c l.sct then routeToController o (raOf l c) d else driveControlWrite o d
  else
    if bitAt c l.sct then fetchFromController o (raOf l c) else readBackDrive o

theorem exec_wr1 (w : Word) (s : State) :
    exec (.wr1 w) s =
      .next (controlWriteClose (wordStepFour s.cfg.layoutIcr (hiByte w) (loByte w)
        (controlWriteOpen s (bitAt (hiByte w) s.cfg.layoutIcr.rsc) (bitAt (hiByte w) s.cfg.layoutIcr.cli)
          (hiByte w)))) := rfl

theorem wordStepFour_transparent (l : IcrLayout) (c d : Byte) : Transparent (wordStepFour l c d) := by
  unfold wordStepFour
  cases bitAt c l.adw <;> cases bitAt c l.sct
  · exact readBackDrive_transparent
  · exact fetchFromController_transparent (raOf l c)
  · exact driveControlWrite_transparent d
  · exact routeToController_transparent (raOf l c) d

/-! ### Every operation -/

/-- The operation does the same from two states that differ in what is not read. -/
def SameEffect (i : Instr) (s : State) (h : Unread) (t : State) : Prop :=
  ∃ h', exec i (s.overlay h) = .next (t.overlay h') ∧ CarriedOver s h t h'

/-- The operation runs the update `F` from both states. -/
theorem SameEffect.of_transparent {F : State → State} {i : Instr} {s t : State} {h : Unread} (hF : Transparent F)
    (hread : ReadAlike s h) (hexec : exec i s = .next t) (hrun : exec i s = .next (F s))
    (hrun' : exec i (s.overlay h) = .next (F (s.overlay h))) : SameEffect i s h t := by
  rw [hrun] at hexec
  cases hexec
  obtain ⟨h', heq, hcarried⟩ := hF s h hread
  exact ⟨h', by rw [hrun', heq], hcarried⟩

/-- The operation runs one update that neither reads nor writes the three. -/
theorem SameEffect.of_blind (F : State → State) (hblind : ∀ s h, F (s.overlay h) = (F s).overlay h)
    (hcfg : ∀ s, (F s).cfg = s.cfg) {i : Instr} {s t : State} {h : Unread} (hread : ReadAlike s h)
    (hexec : exec i s = .next t) (hrun : exec i s = .next (F s))
    (hrun' : exec i (s.overlay h) = .next (F (s.overlay h))) : SameEffect i s h t :=
  .of_transparent (.of_blind hblind hcfg) hread hexec hrun hrun'

/-- Which branch of its rule an operation takes is decided by what both states have in common; that branch is one
transparent update. -/
theorem exec_sameEffect {i : Instr} {s t : State} {h : Unread} (hexec : exec i s = .next t)
    (hread : ReadAlike s h) : SameEffect i s h t := by
  have hnone : Transparent fun s => s := .of_blind (fun _ _ => rfl) fun _ => rfl
  have hword : Transparent fun s => s.give (.word s.ol) := .of_blind (fun _ _ => rfl) fun _ => rfl
  have hidle : Transparent fun s => { s with bs := .idle } := .of_blind (fun _ _ => rfl) fun _ => rfl
  have hreport (r : Bs → Report) : Transparent fun s => s.report (r s.bs) := .report _ fun _ _ => rfl
  have hclose := controlWriteClose_transparent
  cases i with
  | wr1 w =>
    exact .of_transparent (hclose.comp ((wordStepFour_transparent s.cfg.layoutIcr (hiByte w) (loByte w)).comp
      (controlWriteOpen_transparent _ _ _))) hread hexec rfl rfl
  | ctlFdcw m ra d =>
    exact .of_transparent (hclose.comp ((routeToController_transparent ra d).comp
      (controlWriteOpen_transparent _ _ _))) hread hexec rfl rfl
  | ctlDrvw m ra d =>
    exact .of_transparent (hclose.comp ((driveControlWrite_transparent d).comp
      (controlWriteOpen_transparent _ _ _))) hread hexec rfl rfl
  | ctlFdcr m ra d =>
    exact .of_transparent (hclose.comp ((fetchFromController_transparent ra).comp
      (controlWriteOpen_transparent _ _ _))) hread hexec rfl rfl
  | ctlDrvr m ra d =>
    exact .of_transparent (hclose.comp (readBackDrive_transparent.comp
      (controlWriteOpen_transparent _ _ _))) hread hexec rfl rfl
  | rd0 =>
    by_cases hturn : s.bs = .rd2
    · exact .of_transparent (hidle.comp hword) hread hexec (exec_rd0_of_rd2 hturn) (exec_rd0_of_rd2 hturn)
    · exact .of_transparent ((hreport (.an1 · 0#2)).comp hword) hread hexec (exec_rd0_of_ne_rd2 hturn)
        (exec_rd0_of_ne_rd2 hturn)
  | rd1 => exact .of_transparent hword hread hexec rfl rfl
  | rd2 =>
    by_cases hturn : s.bs = .rd2
    · exact .of_transparent (terminalCount_transparent.comp (hidle.comp hword)) hread hexec (exec_rd2_of_rd2 hturn)
        (exec_rd2_of_rd2 hturn)
    · exact .of_transparent ((hreport (.an1 · 2#2)).comp hword) hread hexec (exec_rd2_of_ne_rd2 hturn)
        (exec_rd2_of_ne_rd2 hturn)
  | rd3 =>
    exact .of_blind (fun s => s.give (.word s.cfg.idx3ReadValue)) (fun _ _ => rfl) (fun _ => rfl) hread hexec rfl rfl
  | wr0 w =>
    by_cases hturn : s.bs = .wr1
    · exact .of_transparent (acceptWord_transparent w) hread hexec (exec_wr0_of_wr1 w hturn)
        (exec_wr0_of_wr1 w hturn)
    · exact .of_transparent (hreport (.an2 · 0#2)) hread hexec (exec_wr0_of_ne_wr1 w hturn)
        (exec_wr0_of_ne_wr1 w hturn)
  | wr2 w =>
    by_cases hturn : s.bs = .wr1
    · exact .of_transparent (terminalCount_transparent.comp (acceptWord_transparent w)) hread hexec
        (exec_wr2_of_wr1 w hturn) (exec_wr2_of_wr1 w hturn)
    · exact .of_transparent (hreport (.an2 · 2#2)) hread hexec (exec_wr2_of_ne_wr1 w hturn)
        (exec_wr2_of_ne_wr1 w hturn)
  | wr3 w => exact .of_transparent hnone hread hexec rfl rfl
  | reset => exact .of_transparent resetAll_transparent hread hexec rfl rfl
  | drqLine v =>
    have hlevel (v : Bool) : Transparent fun s => { s with drq := v } := .of_blind (fun _ _ => rfl) fun _ => rfl
    by_cases hrise : s.drq = false ∧ v = true
    · obtain ⟨hdrq, rfl⟩ := hrise
      exact .of_transparent (dataRequestPulse_transparent.comp (hlevel true)) hread hexec
        (exec_drqLine_rise hdrq rfl) (exec_drqLine_rise hdrq rfl)
    · exact .of_transparent (hlevel v) hread hexec (exec_drqLine_of_not_rise hrise) (exec_drqLine_of_not_rise hrise)
  | wpLine d v =>
    by_cases hsel : isSelected d s.sel = true
    · exact .of_blind (fun s => { s with wps := s.wps.set d (!v) }) (fun _ _ => rfl) (fun _ => rfl) hread hexec
        (exec_wpLine_of_selected v hsel) (exec_wpLine_of_selected v hsel)
    · exact .of_transparent hnone hread hexec (exec_wpLine_of_not_selected v hsel)
        (exec_wpLine_of_not_selected v hsel)
  | firqLine v =>
    exact .of_blind (fun s => floppyIrqUpdate { s with firq := v }) (fun _ _ => rfl) (fun _ => rfl) hread hexec rfl rfl
  | rdyLine d v =>
    exact .of_blind (fun s => { s with rdy := s.rdy.set d v }) (fun _ _ => rfl) (fun _ => rfl) hread hexec rfl rfl
  | mchg d =>
    exact .of_blind (fun s => floppyIrqUpdate { s with mc := s.mc.set d true, mci := s.mci.set d true })
      (fun _ _ => rfl) (fun _ => rfl) hread hexec rfl rfl
  | idxLine d v => exact .of_transparent hnone hread hexec rfl rfl
  | ktick m =>
    cases hkevt : s.kevt with
    | true => exact .of_transparent hnone hread hexec (exec_ktick_of_held m hkevt) (exec_ktick_of_held m hkevt)
    | false =>
      cases hfound : (sweep m s.kprev 128 s.kcur).2 with
      | true =>
        obtain ⟨p, hsweep⟩ : ∃ p, sweep m s.kprev 128 s.kcur = (p, true) := ⟨_, Prod.ext rfl hfound⟩
        exact .of_blind (fun s => acceptKey { s with kcur := p } m p) (fun _ _ => rfl) (fun _ => rfl) hread hexec
          (exec_ktick_of_found hkevt hsweep) (exec_ktick_of_found hkevt hsweep)
      | false =>
        exact .of_transparent hnone hread hexec (exec_ktick_of_nothing_found hkevt hfound)
          (exec_ktick_of_nothing_found hkevt hfound)
  | kack =>
    exact .of_blind (fun s => { s.give (.key s.kcur s.kprs) with kevt := false, pend := withBit s.pend 0 false })
      (fun _ _ => rfl) (fun _ => rfl) hread hexec rfl rfl
  | setmask k v =>
    exact .of_blind (fun s => { s with mask := withBit s.mask k.toNat v }) (fun _ _ => rfl) (fun _ => rfl) hread hexec
      rfl rfl
  | setpend k v =>
    by_cases hk : ownedPendBit k = true
    · rw [exec_setpend_of_owned v s hk] at hexec
      cases hexec
    · exact .of_blind (fun s => { s with pend := withBit s.pend k.toNat v }) (fun _ _ => rfl) (fun _ => rfl) hread
        hexec (exec_setpend_of_not_owned v s hk) (exec_setpend_of_not_owned v _ hk)

/-! ### The statements -/

/-- Settles O53: the same `ICR` and `WL` with other reports. -/
theorem reportsDoNotSteer : Obligations.ReportsDoNotSteer := by
  intro i s t hexec
  obtain ⟨new, hnew, -⟩ := atMostOneReport i s t hexec
  refine ⟨new, hnew, fun old => ?_⟩
  obtain ⟨h', hrun, hcarried⟩ := exec_sameEffect (h := ⟨s.icr, s.wl, old⟩) hexec ⟨rfl, rfl, rfl⟩
  obtain ⟨new', hnew', hreports⟩ := hcarried.reports
  have hsame : new = new' := List.append_cancel_left (hnew.symm.trans hnew')
  refine hrun.trans ?_
  rw [State.overlay, hcarried.icr_eq rfl, hcarried.wl_eq rfl, hreports, hsame]

/-- Settles O55: the same `ICR` and reports with another high byte of `WL`. -/
theorem writeLatchHighByteUnread : Obligations.WriteLatchHighByteUnread := by
  intro i s t b hexec
  have hlow : loByte (wordOf b (loByte s.wl)) = loByte s.wl := loByte_wordOf _ _
  obtain ⟨h', hrun, hcarried⟩ :=
    exec_sameEffect (h := ⟨s.icr, wordOf b (loByte s.wl), s.reports⟩) hexec ⟨rfl, rfl, hlow⟩
  have hwl : h'.wl = wordOf (hiByte h'.wl) (loByte t.wl) := by
    rw [← (hcarried.readAlike ⟨rfl, rfl, hlow⟩).wlLow, wordOf_hi_lo]
  refine ⟨hiByte h'.wl, hrun.trans ?_⟩
  rw [State.overlay, hcarried.icr_eq rfl, hcarried.reports_eq rfl]
  exact congrArg (fun w => Host.Outcome.next { t with wl := w }) hwl

/-- Settles O56: the same `WL` and reports with another `ICR`, in which the two bits read agree and then agree
again. -/
theorem storedControlBitsHaveNoEffect : Obligations.StoredControlBitsHaveNoEffect := by
  intro i s t c hden hddw hexec
  obtain ⟨h', hrun, hcarried⟩ := exec_sameEffect (h := ⟨c, s.wl, s.reports⟩) hexec ⟨hden, hddw, rfl⟩
  refine ⟨h'.icr, hrun.trans ?_, hcarried.icr _ hden, hcarried.icr _ hddw⟩
  rw [State.overlay, hcarried.wl_eq rfl, hcarried.reports_eq rfl]

end Sys2Proof.Machine
end

section
/-! A write of index 1 (spec/41_register_bridge.md sections 2 and 3): that it is the sub-operation of its word, and the
order of its calls. -/

namespace Sys2Proof.Machine

/-! ### The word of a control write -/

/-- Settles O22: the control byte put together from its fields is the written one. -/
theorem controlWordRunsItsSubOperation : Obligations.ControlWordRunsItsSubOperation := by
  intro w s hwf
  refine ⟨ctlOf s.cfg.layoutIcr (wordOf (hiByte w) (loByte w)), rfl, ?_⟩
  have hfields := ctlByte_fields hwf (hiByte w)
  rw [wordOf_hi_lo, exec_wr1, wordStepFour]
  cases hadw : bitAt (hiByte w) s.cfg.layoutIcr.adw <;> cases hsct : bitAt (hiByte w) s.cfg.layoutIcr.sct <;>
    rw [hadw, hsct] at hfields <;> simp only [ctlOf, hadw, hsct]
  · simp only [exec, execCtlDrvr, hfields]; rfl
  · simp only [exec, execCtlFdcr, hfields]; rfl
  · simp only [exec, execCtlDrvw, hfields]; rfl
  · simp only [exec, execCtlFdcw, hfields]; rfl

/-! ### The calls of a control write (R133) -/

theorem wordStepFour_subOperation (l : IcrLayout) (w : Word) (o : State) :
    SubOperation l (.wr1 w) o (wordStepFour l (hiByte w) (loByte w) o) := by
  unfold wordStepFour
  cases hadw : bitAt (hiByte w) l.adw <;> cases hsct : bitAt (hiByte w) l.sct
  · exact .inr (.inr (.inr rfl))
  · exact .inr (.inr (.inl ⟨_, rfl⟩))
  · exact .inr (.inl ⟨loByte w, if_pos ⟨hadw, hsct⟩, rfl⟩)
  · exact .inl ⟨_, _, rfl⟩

theorem openBase_calls (s : State) (rsc : Bool) :
    (openBase s rsc).calls = s.calls ++ (if rsc then resetCalls ++ [.ctlSoftReset] else []) := by
  cases rsc with
  | false => exact (List.append_nil _).symm
  | true => rw [openBase_true]; exact List.append_assoc _ _ _

theorem openBase_sel (s : State) (rsc : Bool) : (openBase s rsc).sel = if rsc then .none else s.sel := by
  cases rsc <;> rfl

theorem openBase_bs (s : State) (rsc : Bool) : (openBase s rsc).bs = if rsc then .idle else s.bs := by
  cases rsc <;> rfl

theorem openBase_sameAnswers (s : State) (rsc : Bool) : SameAnswers (openBase s rsc) s := by
  obtain ⟨-, -, -, -, -, -, -, hanswers, hnfree, -⟩ := openBase_kept s rsc
  exact ⟨hanswers, hnfree⟩

/-- The controller is told of a change of selection only (R155). -/
theorem driveControlWrite_calls (s : State) (b : Byte) :
    (driveControlWrite s b).calls = s.calls ++
      ([Call.drvSetSide .d0 (!b.getLsbD s.cfg.layoutDcr.side), .drvSetSide .d1 (!b.getLsbD s.cfg.layoutDcr.side),
        .drvSetMotor .d0 (!b.getLsbD s.cfg.layoutDcr.mot0), .drvSetMotor .d1 (!b.getLsbD s.cfg.layoutDcr.mot1)] ++
      (if selectionOf s.cfg.layoutDcr b = s.sel then [] else [.ctlSetFloppy (selectionOf s.cfg.layoutDcr b)])) := by
  rw [driveControlWrite_eq]
  exact List.append_assoc _ _ _

theorem driveControlWrite_dcr (s : State) (b : Byte) : (driveControlWrite s b).dcr = b := by
  rw [driveControlWrite_eq]

theorem driveControlWrite_sel (s : State) (b : Byte) :
    (driveControlWrite s b).sel = selectionOf s.cfg.layoutDcr b := by
  rw [driveControlWrite_eq]

theorem driveControlWrite_reports (s : State) (b : Byte) :
    (driveControlWrite s b).reports = s.reports ++
      (if b.getLsbD s.cfg.layoutDcr.drv1 = false ∧ b.getLsbD s.cfg.layoutDcr.drv0 = false then [.dg1 b] else []) := by
  rw [driveControlWrite_eq]
  rfl

/-- The state steps 1 to 3 of a write of index 1 leave. -/
def wordOpen (w : Word) (s : State) : State :=
  controlWriteOpen s (bitAt (hiByte w) s.cfg.layoutIcr.rsc) (bitAt (hiByte w) s.cfg.layoutIcr.cli) (hiByte w)

/-- The state step 4 of a write of index 1 leaves. -/
def wordMid (w : Word) (s : State) : State :=
  wordStepFour s.cfg.layoutIcr (hiByte w) (loByte w) (wordOpen w s)

theorem exec_wr1_mid (w : Word) (s : State) : exec (.wr1 w) s = .next (controlWriteClose (wordMid w s)) := rfl

/-- What the start test of a write of index 1 sees: the phase step 1 leaves, and the written `DEN` and `DDW`. -/
theorem wordMid_start (w : Word) (s : State) :
    (wordMid w s).bs = (openBase s (bitAt (hiByte w) s.cfg.layoutIcr.rsc)).bs ∧
    (wordMid w s).den = bitAt (hiByte w) s.cfg.layoutIcr.den ∧ (wordMid w s).drq = s.drq ∧
    (wordMid w s).ddw = bitAt (hiByte w) s.cfg.layoutIcr.ddw := by
  have hsub := (wordStepFour_subOperation s.cfg.layoutIcr w (wordOpen w s)).spec
  have hicr : (wordMid w s).icr = hiByte w := hsub.icr.trans (controlWriteOpen_icr ..)
  have hcfg : (wordMid w s).cfg = s.cfg := hsub.cfg.trans (controlWriteOpen_cfg ..)
  obtain ⟨hdrq, -⟩ := openBase_kept s (bitAt (hiByte w) s.cfg.layoutIcr.rsc)
  refine ⟨hsub.bs.trans (controlWriteOpen_bs ..), ?_, (hsub.drq.trans (controlWriteOpen_drq ..)).trans hdrq, ?_⟩
  · rw [State.den, hicr, hcfg]
  · rw [State.ddw, hicr, hcfg]

/-- Settles O23: the calls of step 4 over those of step 1, by the two bits that choose it, then those of the start
test. -/
theorem controlWriteCallOrder : Obligations.ControlWriteCallOrder := by
  intro w s
  obtain ⟨b, hclose⟩ := controlWriteClose_calls (wordMid w s)
  obtain ⟨hbs, hden, hdrq, hddw⟩ := wordMid_start w s
  refine ⟨_, b, exec_wr1_mid w s, hclose.trans (congrArg₂ (· ++ ·) ?stepFour ?startTest)⟩
  case startTest =>
    rw [hbs, hden, hdrq, hddw, openBase_bs]
    rfl
  case stepFour =>
    have hopen : (wordOpen w s).calls = s.calls ++
        (if bitAt (hiByte w) s.cfg.layoutIcr.rsc then resetCalls ++ [.ctlSoftReset] else []) :=
      (controlWriteOpen_calls ..).trans (openBase_calls ..)
    have hcfg : (wordOpen w s).cfg = s.cfg := controlWriteOpen_cfg ..
    have hanswer : (wordOpen w s).nextAnswer = s.nextAnswer :=
      ((controlWriteOpen_sameAnswers ..).trans (openBase_sameAnswers ..)).nextAnswer
    have hsel : (wordOpen w s).sel = if bitAt (hiByte w) s.cfg.layoutIcr.rsc then .none else s.sel :=
      (controlWriteOpen_sel ..).trans (openBase_sel ..)
    rw [wordMid, wordStepFour]
    cases hadw : bitAt (hiByte w) s.cfg.layoutIcr.adw <;> cases hsct : bitAt (hiByte w) s.cfg.layoutIcr.sct <;>
      rw [bitAt, hiByte] at hadw hsct <;> simp only [hadw, hsct, Bool.false_eq_true, if_true, if_false]
    · exact hopen.trans (List.append_nil _).symm
    · rw [fetchFromController_eq, hopen, hanswer]
      rfl
    · rw [driveControlWrite_calls, hopen, hcfg, hsel]
      rfl
    · rw [routeToController_eq, hopen]
      rfl

end Sys2Proof.Machine
end

section
/-! Reset by a control write (spec/70_reset_and_hazards.md section 1), the status byte a control write latches
(spec/42_status_aggregator.md section 1), the diagnostic report of its drive byte (spec/60_exceptions.md section 1),
and that a transition of the keyboard is reported once (spec/45_keyboard_scanner.md section 3). -/

namespace Sys2Proof.Machine

/-! ### A control write with `RSC` (R127, R243) -/

/-- A bit of the control byte, written in the word. -/
theorem hiByte_withBit_high (w : Word) (p : Fin 8) (v : Bool) :
    hiByte (withBit w (8 + p) v) = withBit (hiByte w) p v := by
  have hp : 8 + (p : Nat) < 16 := by omega
  refine BitVec.eq_of_getLsbD_eq fun k hk => ?_
  rw [getLsbD_withBit_of_lt _ _ p.isLt, hiByte, hiByte, BitVec.getLsbD_extractLsb', BitVec.getLsbD_extractLsb',
    getLsbD_withBit_of_lt _ _ hp]
  simp [hk]

theorem loByte_withBit_high (w : Word) (p : Fin 8) (v : Bool) : loByte (withBit w (8 + p) v) = loByte w := by
  refine loByte_eq_iff.mpr fun k hk => ?_
  rw [getLsbD_withBit_of_lt _ _ (by omega), if_neg (by omega)]

/-- Without the reset, steps 1 to 3 over the state the reset leaves, but for the byte stored (R127). -/
theorem controlWriteOpen_reset (s : State) (cli : Bool) (c c' : Byte) :
    controlWriteOpen s true cli c = { controlWriteOpen (controllerReset s) false cli c' with icr := c } := by
  cases cli <;> rfl

/-- Step 4 reads neither the reset bit nor what of the byte only step 1 reads. -/
theorem wordStepFour_withBit_rsc {l : IcrLayout} (hwf : l.Wf) (c d : Byte) (v : Bool) :
    wordStepFour l (withBit c l.rsc v) d = wordStepFour l c d := by
  obtain ⟨-, -, -, ⟨hadw, hsct, hra1, hra0⟩, -⟩ := IcrLayout_ne hwf
  funext o
  simp only [wordStepFour, raOf, bitAt_withBit, hadw.symm, hsct.symm, hra1.symm, hra0.symm, if_false]

theorem controllerReset_cfg (s : State) : (controllerReset s).cfg = s.cfg := rfl

theorem wordClose_icr (l : IcrLayout) (w : Word) (o : State) :
    (controlWriteClose (wordStepFour l (hiByte w) (loByte w) o)).icr = o.icr :=
  (controlWriteClose_spec _).icr.trans (wordStepFour_subOperation l w o).spec.icr

/-- Steps 4 to 7 read `DEN` and `DDW` alone of the stored control byte, and write no bit of it. -/
theorem wordClose_withIcr (l : IcrLayout) (w : Word) {o : State} {c : Byte}
    (hden : c.getLsbD o.cfg.layoutIcr.den = o.icr.getLsbD o.cfg.layoutIcr.den)
    (hddw : c.getLsbD o.cfg.layoutIcr.ddw = o.icr.getLsbD o.cfg.layoutIcr.ddw) :
    controlWriteClose (wordStepFour l (hiByte w) (loByte w) { o with icr := c }) =
      { controlWriteClose (wordStepFour l (hiByte w) (loByte w) o) with icr := c } := by
  obtain ⟨h', heq, hcarried⟩ := (controlWriteClose_transparent.comp
    (wordStepFour_transparent l (hiByte w) (loByte w))) o ⟨c, o.wl, o.reports⟩ ⟨hden, hddw, rfl⟩
  have hstored : h'.icr = c := (congrArg State.icr heq).symm.trans (wordClose_icr ..)
  refine heq.trans ?_
  rw [State.overlay, hcarried.wl_eq rfl, hcarried.reports_eq rfl, hstored]

/-- A write with `RSC` opens as the write `w'` without it does over the reset state, but for the byte stored. -/
theorem wordOpen_of_rsc {w w' : Word} {s : State} (hwf : s.cfg.layoutIcr.Wf)
    (hset : bitAt (hiByte w) s.cfg.layoutIcr.rsc = true)
    (hbyte : hiByte w' = withBit (hiByte w) s.cfg.layoutIcr.rsc false) :
    wordOpen w s = { wordOpen w' (controllerReset s) with icr := hiByte w } := by
  obtain ⟨⟨-, -, hcli, -⟩, -⟩ := IcrLayout_ne hwf
  have hrsc' : bitAt (hiByte w') s.cfg.layoutIcr.rsc = false := by rw [hbyte, bitAt_withBit, if_pos rfl]
  have hcli' : bitAt (hiByte w') s.cfg.layoutIcr.cli = bitAt (hiByte w) s.cfg.layoutIcr.cli := by
    rw [hbyte, bitAt_withBit, if_neg hcli]
  rw [wordOpen, wordOpen, controllerReset_cfg, hset, hrsc', hcli', controlWriteOpen_reset s _ _ (hiByte w')]

/-- Settles O24: the rest of the write sees the reset state, in which the two stored bytes differ at a bit that is
not read. -/
theorem controllerResetThenRest : Obligations.ControllerResetThenRest := by
  intro w s hwf hrsc
  obtain ⟨-, ⟨-, hddw, -⟩, ⟨hden, -⟩, -⟩ := IcrLayout_ne hwf
  have hset : bitAt (hiByte w) s.cfg.layoutIcr.rsc = true := by
    rw [← hrsc, bitAt, hiByte, BitVec.getLsbD_extractLsb', decide_eq_true s.cfg.layoutIcr.rsc.isLt, Bool.true_and]
  generalize hw' : withBit w (8 + s.cfg.layoutIcr.rsc) false = w'
  have hbyte : hiByte w' = withBit (hiByte w) s.cfg.layoutIcr.rsc false := by rw [← hw', hiByte_withBit_high]
  have hlow : loByte w' = loByte w := by rw [← hw', loByte_withBit_high]
  have hopen := wordOpen_of_rsc hwf hset hbyte
  have hmid' : wordMid w' (controllerReset s) =
      wordStepFour s.cfg.layoutIcr (hiByte w) (loByte w) (wordOpen w' (controllerReset s)) := by
    rw [wordMid, controllerReset_cfg, hbyte, hlow, wordStepFour_withBit_rsc hwf]
  have hicr : (wordOpen w' (controllerReset s)).icr = withBit (hiByte w) s.cfg.layoutIcr.rsc false := by
    rw [wordOpen, controlWriteOpen_icr, hbyte]
  have hcfg : (wordOpen w' (controllerReset s)).cfg = s.cfg := controlWriteOpen_cfg ..
  refine ⟨resetAll s, _, rfl, exec_wr1_mid w' (controllerReset s), ?_⟩
  rw [exec_wr1_mid, wordMid, hopen, hmid', wordClose_withIcr, hiByte]
  · rw [hicr, hcfg]
    exact ((bitAt_withBit ..).trans (if_neg hden)).symm
  · rw [hicr, hcfg]
    exact ((bitAt_withBit ..).trans (if_neg hddw)).symm

/-! ### The status byte (R140) -/

theorem StatusLayout_ne {l : StatusLayout} (h : l.Wf) :
    (l.fip ≠ l.dip ∧ l.fip ≠ l.mc1 ∧ l.fip ≠ l.wp1 ∧ l.fip ≠ l.rdy1 ∧ l.fip ≠ l.mc0 ∧ l.fip ≠ l.wp0 ∧
      l.fip ≠ l.rdy0) ∧
    (l.dip ≠ l.mc1 ∧ l.dip ≠ l.wp1 ∧ l.dip ≠ l.rdy1 ∧ l.dip ≠ l.mc0 ∧ l.dip ≠ l.wp0 ∧ l.dip ≠ l.rdy0) ∧
    (l.mc1 ≠ l.wp1 ∧ l.mc1 ≠ l.rdy1 ∧ l.mc1 ≠ l.mc0 ∧ l.mc1 ≠ l.wp0 ∧ l.mc1 ≠ l.rdy0) ∧
    (l.wp1 ≠ l.rdy1 ∧ l.wp1 ≠ l.mc0 ∧ l.wp1 ≠ l.wp0 ∧ l.wp1 ≠ l.rdy0) ∧
    (l.rdy1 ≠ l.mc0 ∧ l.rdy1 ≠ l.wp0 ∧ l.rdy1 ≠ l.rdy0) ∧ (l.mc0 ≠ l.wp0 ∧ l.mc0 ≠ l.rdy0) ∧
    l.wp0 ≠ l.rdy0 := by
  simpa [StatusLayout.Wf, StatusLayout.positions, and_assoc] using h

/-- A later field of the byte leaves an earlier one, because its position is another. -/
theorem statusCompose_fields {s : State} (h : s.cfg.layoutStatus.Wf) :
    bitAt (statusCompose s) s.cfg.layoutStatus.fip = s.firq ∧
    bitAt (statusCompose s) s.cfg.layoutStatus.dip = s.dip ∧
    bitAt (statusCompose s) s.cfg.layoutStatus.mc1 = s.mc.d1 ∧
    bitAt (statusCompose s) s.cfg.layoutStatus.wp1 = s.wps.d1 ∧
    bitAt (statusCompose s) s.cfg.layoutStatus.rdy1 = s.rdy.d1 ∧
    bitAt (statusCompose s) s.cfg.layoutStatus.mc0 = s.mc.d0 ∧
    bitAt (statusCompose s) s.cfg.layoutStatus.wp0 = s.wps.d0 ∧
    bitAt (statusCompose s) s.cfg.layoutStatus.rdy0 = s.rdy.d0 := by
  obtain ⟨hfip, hdip, hmc1, hwp1, hrdy1, hmc0, hwp0⟩ := StatusLayout_ne h
  simp only [statusCompose, bitAt_withBit, hfip, hdip, hmc1, hwp1, hrdy1, hmc0, hwp0, if_true, if_false, true_and]

/-- Under the default layout the eight fields stand in the order of R140 from bit 7 down. -/
theorem statusCompose_standard {s : State} (h : s.cfg.layoutStatus = StatusLayout.standard) :
    statusCompose s =
      BitVec.ofBool s.firq ++ BitVec.ofBool s.dip ++ BitVec.ofBool s.mc.d1 ++ BitVec.ofBool s.wps.d1 ++
      BitVec.ofBool s.rdy.d1 ++ BitVec.ofBool s.mc.d0 ++ BitVec.ofBool s.wps.d0 ++ BitVec.ofBool s.rdy.d0 := by
  rw [statusCompose, h]
  generalize s.firq = fip, s.dip = dip, s.mc.d1 = mc1, s.wps.d1 = wp1, s.rdy.d1 = rdy1, s.mc.d0 = mc0,
    s.wps.d0 = wp0, s.rdy.d0 = rdy0
  revert fip dip mc1 wp1 rdy1 mc0 wp0 rdy0
  decide

/-- Settles O29: each field at its position, and the whole byte under the default layout. -/
theorem statusByte : Obligations.StatusByte :=
  fun _ => ⟨fun hwf => statusCompose_fields hwf, fun hstandard => statusCompose_standard hstandard⟩

/-! ### The sole reset word -/

theorem dmaEvaluate_of_disabled {s : State} (h : s.den = false) : dmaEvaluate s = s :=
  if_neg fun ⟨_, hden, _⟩ => Bool.false_ne_true (h.symm.trans hden)

/-- The control byte `0x10` is `RSC` alone, and names `CTL.DRVR` (R62, R72). -/
theorem wordMid_soleReset {s : State} (hicr : s.cfg.layoutIcr = IcrLayout.standard) :
    wordMid 0x1000#16 s =
      { clearStored s with
        icr := 0x10#8, ol := withLo 0x0000#16 0xFF#8, pend := withBit 0#8 4 (s.firq && s.cfg.fdcIrqInAgg)
        calls := s.calls ++ resetCalls ++ [.ctlSoftReset] } := by
  have hopen : wordOpen 0x1000#16 s = controlWriteOpen s true false 0x10#8 := by rw [wordOpen, hicr]; rfl
  have hstep4 (o : State) :
      wordStepFour IcrLayout.standard (hiByte 0x1000#16) (loByte 0x1000#16) o = readBackDrive o := rfl
  rw [wordMid, hicr, hstep4, hopen, controlWriteOpen_base, openBase_true, readBackDrive_eq, clearStored]
  rfl

/-- After reset three of the status bits are live: the two ready lines and the interrupt-request line. -/
theorem status_of_live_lines (firq rdy1 rdy0 : Bool) :
    (BitVec.ofBool firq ++ BitVec.ofBool false ++ BitVec.ofBool false ++ BitVec.ofBool false ++ BitVec.ofBool rdy1 ++
      BitVec.ofBool false ++ BitVec.ofBool false ++ BitVec.ofBool rdy0 : Byte) =
    BitVec.ofBool firq ++ 0#3 ++ BitVec.ofBool rdy1 ++ 0#2 ++ BitVec.ofBool rdy0 := by
  revert firq rdy1 rdy0
  decide

/-- Computing the floppy bit once more leaves it. -/
theorem withBit_four_again (firq inAgg : Bool) :
    withBit (withBit 0#8 4 (firq && inAgg)) 4 (false || false || false || (firq && inAgg)) =
      if inAgg = true ∧ firq = true then 0x10#8 else 0x00#8 := by
  cases firq <;> cases inAgg <;> rfl

/-- Settles O25: the control byte `0x10` reads back the reset value of the drive control register, and no transfer
starts, because `DEN` is 0. -/
theorem soleResetWord : Obligations.SoleResetWord := by
  intro s hicr hstatus
  have hmid := wordMid_soleReset hicr
  have hbyte : statusCompose (wordMid 0x1000#16 s) =
      BitVec.ofBool s.firq ++ 0#3 ++ BitVec.ofBool s.rdy.d1 ++ 0#2 ++ BitVec.ofBool s.rdy.d0 := by
    rw [hmid]
    exact (statusCompose_standard (by exact hstatus)).trans (status_of_live_lines s.firq s.rdy.d1 s.rdy.d0)
  have hdisabled : (statusWritten (wordMid 0x1000#16 s)).den = false := by
    rw [hmid]
    change bitAt 0x10#8 s.cfg.layoutIcr.den = false
    rw [hicr]
    rfl
  rw [exec_wr1_mid, controlWriteClose_statusWritten, dmaEvaluate_of_disabled hdisabled, statusWritten, hbyte, hmid]
  simp only [clearStored, withHi, loByte_withLo, wordOf, withBit_four_again]
  rfl

/-! ### The diagnostic report (R157, R215) -/

/-- Settles O34: of the steps after the drive-control write none writes the selection, the latch or a report. -/
theorem bothDrivesEnabled : Obligations.BothDrivesEnabled := by
  intro m ra d s hdrive1 hdrive0
  have hclose := controlWriteClose_spec (driveControlWrite
    (controlWriteOpen s m.rsc m.cli (ctlByte s.cfg.layoutIcr m true false ra)) d)
  obtain ⟨-, -, -, -, -, hreports, -⟩ := openBase_kept s m.rsc
  refine ⟨_, rfl, hclose.sel.trans ?_, hclose.dcr.trans (driveControlWrite_dcr _ d), hclose.reports.trans ?_⟩
  · rw [driveControlWrite_sel, controlWriteOpen_cfg, selectionOf_of_drv1 hdrive1]
  · rw [driveControlWrite_reports, controlWriteOpen_cfg, if_pos ⟨hdrive1, hdrive0⟩, controlWriteOpen_reports, hreports]

/-! ### A transition of the keyboard (spec/45_keyboard_scanner.md section 3) -/

/-- The only position that differs is where a whole sweep stops: every other one agrees, and no position is left out
of a whole sweep. -/
theorem sweep_of_single_difference {m kprev : BitVec 128} (c p : BitVec 7)
    (h : ∀ k, k < 128 → (m.getLsbD k ≠ kprev.getLsbD k ↔ k = p.toNat)) : sweep m kprev 128 c = (p, true) := by
  rcases sweep_spec m kprev 128 c with ⟨k, -, hstop, hdiff, -⟩ | ⟨-, hpassed⟩
  · have hposition := (h _ (BitVec.isLt _)).mp hdiff
    rw [hstop, BitVec.eq_of_toNat_eq hposition]
  · have hreach : c + BitVec.ofNat 7 ((p - c - 1#7).toNat + 1) = p := by
      rw [BitVec.ofNat_add, BitVec.ofNat_toNat, BitVec.setWidth_eq, BitVec.sub_add_cancel, BitVec.add_comm,
        BitVec.sub_add_cancel]
    have hagree := hpassed (p - c - 1#7).toNat (BitVec.isLt _)
    rw [hreach] at hagree
    exact absurd hagree ((h _ p.isLt).mpr rfl)

/-- Accepting the one level that differs makes the accepted state the sample. -/
theorem withBit_of_single_difference {m kprev : BitVec 128} {p : BitVec 7}
    (h : ∀ k, k < 128 → (m.getLsbD k ≠ kprev.getLsbD k ↔ k = p.toNat)) :
    withBit kprev p.toNat (m.getLsbD p.toNat) = m := by
  refine BitVec.eq_of_getLsbD_eq fun k hk => ?_
  rw [getLsbD_withBit_of_lt _ _ p.isLt]
  split
  case isTrue hp => rw [hp]
  case isFalse hp => exact (not_not.mp (mt (h k hk).mp hp)).symm

/-- Settles O43: the tick accepts the position, scanning is halted until the acknowledge, and then the sample is the
accepted state. -/
theorem eachTransitionReportedOnce : Obligations.EachTransitionReportedOnce := by
  intro s p m hkevt hsingle
  have htick := exec_ktick_of_found hkevt (sweep_of_single_difference s.kcur p hsingle)
  have hkprev : (acceptKey { s with kcur := p } m p).kprev = m := withBit_of_single_difference hsingle
  refine ⟨_, _, htick, rfl, rfl, hkprev, rfl, fun m' => exec_ktick_of_held m' rfl, exec_kack _, rfl, ?_⟩
  exact exec_ktick_of_none rfl (sweep_of_agree p fun k _ => congrArg (·.getLsbD k) hkprev.symm)

end Sys2Proof.Machine
end
